-- ==== Sys2Proof/Word.lean ====
section
/-! DEFINITION. The word types of HXPD: bytes, the 64-bit RAW, the 32-bit OUT and sample word, the 6-bit CNT
(spec/10_state.md R11 to R13, spec/20_memory.md R30). -/

namespace Sys2Proof

/-- The addressable unit of the buffer space (R30). -/
abbrev Byte := BitVec 8

/-- RAW's width (R11). -/
abbrev RawWord := BitVec 64

/-- OUT's width and the sample word's (R12, R61). -/
abbrev SampleWord := BitVec 32

/-- CNT's width (R13). -/
abbrev CountWord := BitVec 6

end Sys2Proof
end

