-- ==== Sys2Proof/Config.lean ====
section
/-! DEFINITION. What the spec leaves open, as uninterpreted constants: nothing in Lean can evaluate one or prove a
value of it, so a claim holds whatever it is. -/

namespace Sys2Proof.Config

/-- The unspecified content of RAW at the `k`-th moment something becomes unspecified
(spec/60_exceptions.md R137, spec/93_implementation_defined.md U7; log 3). -/
opaque freeRaw : Nat → RawWord

/-- The unspecified content of OUT (R137, U7; log 3). -/
opaque freeOut : Nat → SampleWord

/-- The unspecified content of CNT (R137, U7; log 3). -/
opaque freeCnt : Nat → CountWord

/-- What a buffer byte holds that nothing has written since BUF last became unspecified: the moment, then the
address (spec/20_memory.md R47, U7; log 4). -/
opaque freeBufByte : Nat → Nat → Byte

/-- How many raw bits of the frame went out before the transport failed (spec/42_exchange_validate.md R90; log 15). -/
opaque freeSent : Nat → Nat

/-- What raw bits came in before the transport failed (R90; log 15). -/
opaque freeArrived : Nat → List Bool

/-- SCALE_FMT, the open number format in which SCALE delivers an exact rational
(spec/00_scope.md R5, spec/92_eei_decisions.md D18; log 14). -/
opaque scaleFmt : Rat → List Bool

end Sys2Proof.Config
end

