-- ==== Sys2Proof/Syntax.lean ====
section
/-! DEFINITION. The operations and wire symbols of HXPD: one constructor per row of spec/opcode_table.json. -/

namespace Sys2Proof

/-- spec/30_encoding.md R62 (the ten operations, with the operands of its table and of the written form R63) and
R52, R55, R57 (the seven wire symbols). XCHG's one input is the transport's answer, no operand from the caller
(R90), so it stands in the state. -/
inductive Instr where
  /-- OP 0: `IDLEB clock_hz, reset_us` (R70). -/
  | idleb (clockHz resetUs : Nat)
  /-- OP 1: build the transmit frame (R80). -/
  | encode
  /-- OP 2: exchange the frame with the transport (R90). -/
  | xchg
  /-- OP 3: test the READY byte (R94). -/
  | valid
  /-- OP 4: load the receive window (R100). -/
  | ldraw
  /-- OP 5: one iteration of the 2-bit-discard pass (R101). -/
  | dstep
  /-- OP 6: deliver the sample (R102). -/
  | final
  /-- OP 7: the macro LDRAW; DSTEP × 32; FINAL (R103). -/
  | decode
  /-- OP 8: the macro ENCODE; XCHG; VALID; DECODE (R120). -/
  | read
  /-- OP 9: `SCALE s` (R123). -/
  | scale (s : SampleWord)
  /-- Transmit byte 0x00 (R52). -/
  | txidle
  /-- Transmit byte 0xAA (R52). -/
  | txclk
  /-- Received READY byte 0xFF (R55). -/
  | rxnotrdy
  /-- Received pair 00 (R57). -/
  | pair0
  /-- Received pair 11 (R57). -/
  | pair1
  /-- Received pair 01, illegal (R57, R59). -/
  | pairx01
  /-- Received pair 10, illegal (R57, R59). -/
  | pairx10
  deriving DecidableEq, Repr

/-- The formats of the opcode table. Their numbers overlap; position tells them apart (R64), so a code carries its
format. -/
inductive Format where
  /-- A 4-bit operation number, in bits 3..0 of its byte (R62). -/
  | op4
  /-- A byte of the transmit frame (R52). -/
  | txbyte
  /-- The READY byte of the receive frame (R55). -/
  | rxready
  /-- A pair of raw bits of the receive window, in bits 1..0 of its byte, b1 in bit 1 (R57). -/
  | pair
  deriving DecidableEq, Repr

/-- An encoded instruction: its format, the byte that holds its number, then its operand bytes (log 10). -/
structure Code where
  format : Format
  bytes  : List Byte
  deriving DecidableEq, Repr

end Sys2Proof
end

