-- ==== Sys2Proof/WellFormed.lean ====
section
/-! DEFINITION. Which instructions are well formed: the operand contract of IDLEB (spec/40_timing_calculator.md R70,
R73). No other instruction has an operand that can be out of range: SCALE takes any 32-bit number (R123). -/

namespace Sys2Proof

/-- The largest legal product, P_MAX (R73, spec/92_eei_decisions.md D8). -/
def pMax : Nat := 2 ^ 64 - 1

/-- The operand checks: clock_hz ≥ 1, reset_us ≥ 1, their product at most P_MAX (R73). -/
def Instr.wellFormed : Instr → Bool
  | .idleb clockHz resetUs => decide (1 ≤ clockHz) && decide (1 ≤ resetUs) && decide (clockHz * resetUs ≤ pMax)
  | .encode => true
  | .xchg => true
  | .valid => true
  | .ldraw => true
  | .dstep => true
  | .final => true
  | .decode => true
  | .read => true
  | .scale _ => true
  | .txidle => true
  | .txclk => true
  | .rxnotrdy => true
  | .pair0 => true
  | .pair1 => true
  | .pairx01 => true
  | .pairx10 => true

end Sys2Proof
end

