-- ==== Sys2Proof/Decode.lean ====
section
/-! DEFINITION. The decoder, total on any bytes and rejecting by name, then the encoder, both from the tables of
spec/30_encoding.md (R52, R55, R57, R62). The operand bytes of IDLEB and SCALE, which the spec does not encode, are the
model's own (log 10). -/

namespace Sys2Proof

/-- Why bytes are no instruction. -/
inductive DecodeError where
  /-- No byte at all. -/
  | empty
  /-- OP 0xA to 0xF: "(unassigned) … refused: no operation" (R62). -/
  | unassignedOp
  /-- The byte's value does not fit its format's field (R62: four bits; R57: two bits). -/
  | notInField
  /-- "No other byte value is ever sent" (R52). -/
  | notTransmitted
  /-- A READY byte other than 0xFF is no symbol of the table: it means ready (R55). -/
  | readyByte
  /-- Fewer operand bytes than the operation takes (log 10). -/
  | operandsMissing
  /-- Bytes are left over after the instruction (log 10). -/
  | trailingBytes
  deriving DecidableEq, Repr

/-- What the decoder answers: an instruction and the bytes after it, or a rejection by name. -/
inductive Decoded where
  | instr (i : Instr) (rest : List Byte)
  | reject (e : DecodeError)
  deriving DecidableEq, Repr

/-- The number `bytes` denotes, most significant byte first (spec/20_memory.md R32). -/
def beNat (bytes : List Byte) : Nat :=
  bytes.foldl (fun acc b => acc * 256 + b.toNat) 0

/-- The low `8 * n` bits of `v` as `n` bytes, most significant first (R32). -/
def beBytes : Nat → Nat → List Byte
  | 0, _ => []
  | n + 1, v => beBytes n (v / 256) ++ [BitVec.ofNat 8 v]

/-- IDLEB's operands: two 64-bit words, big-endian (log 10). -/
def decodeIdleb (bytes : List Byte) : Decoded :=
  if bytes.length < 16 then .reject .operandsMissing
  else .instr (.idleb (beNat (bytes.take 8)) (beNat ((bytes.drop 8).take 8))) (bytes.drop 16)

/-- SCALE's operand: one 32-bit word, big-endian (log 10). -/
def decodeScale (bytes : List Byte) : Decoded :=
  if bytes.length < 4 then .reject .operandsMissing
  else .instr (.scale (BitVec.ofNat 32 (beNat (bytes.take 4)))) (bytes.drop 4)

/-- Format OP4 (R62). -/
def decodeOp (op : Nat) (rest : List Byte) : Decoded :=
  match op with
  | 0 => decodeIdleb rest
  | 1 => .instr .encode rest
  | 2 => .instr .xchg rest
  | 3 => .instr .valid rest
  | 4 => .instr .ldraw rest
  | 5 => .instr .dstep rest
  | 6 => .instr .final rest
  | 7 => .instr .decode rest
  | 8 => .instr .read rest
  | 9 => decodeScale rest
  | _ => if op < 16 then .reject .unassignedOp else .reject .notInField

/-- Format TXBYTE (R52). -/
def decodeTx (byte : Nat) (rest : List Byte) : Decoded :=
  match byte with
  | 0x00 => .instr .txidle rest
  | 0xAA => .instr .txclk rest
  | _ => .reject .notTransmitted

/-- Format RXREADY (R55). -/
def decodeReady (byte : Nat) (rest : List Byte) : Decoded :=
  match byte with
  | 0xFF => .instr .rxnotrdy rest
  | _ => .reject .readyByte

/-- Format PAIR (R57): the number b1 b2, b1 the higher bit. -/
def decodePair (pair : Nat) (rest : List Byte) : Decoded :=
  match pair with
  | 0 => .instr .pair0 rest
  | 1 => .instr .pairx01 rest
  | 2 => .instr .pairx10 rest
  | 3 => .instr .pair1 rest
  | _ => .reject .notInField

/-- The decoder on a list of bytes. -/
def decodeBytes (f : Format) : List Byte → Decoded
  | [] => .reject .empty
  | b :: rest =>
    match f with
    | .op4 => decodeOp b.toNat rest
    | .txbyte => decodeTx b.toNat rest
    | .rxready => decodeReady b.toNat rest
    | .pair => decodePair b.toNat rest

/-- The decoder on one code: the whole of it must be one instruction. -/
def decode (c : Code) : Decoded :=
  match decodeBytes c.format c.bytes with
  | .instr i [] => .instr i []
  | .instr _ (_ :: _) => .reject .trailingBytes
  | .reject e => .reject e

/-- The encoder, from the same tables (R52, R55, R57, R62). -/
def encode : Instr → Code
  | .idleb clockHz resetUs => ⟨.op4, 0x00#8 :: (beBytes 8 clockHz ++ beBytes 8 resetUs)⟩
  | .encode => ⟨.op4, [0x01#8]⟩
  | .xchg => ⟨.op4, [0x02#8]⟩
  | .valid => ⟨.op4, [0x03#8]⟩
  | .ldraw => ⟨.op4, [0x04#8]⟩
  | .dstep => ⟨.op4, [0x05#8]⟩
  | .final => ⟨.op4, [0x06#8]⟩
  | .decode => ⟨.op4, [0x07#8]⟩
  | .read => ⟨.op4, [0x08#8]⟩
  | .scale s => ⟨.op4, 0x09#8 :: beBytes 4 s.toNat⟩
  | .txidle => ⟨.txbyte, [0x00#8]⟩
  | .txclk => ⟨.txbyte, [0xAA#8]⟩
  | .rxnotrdy => ⟨.rxready, [0xFF#8]⟩
  | .pair0 => ⟨.pair, [0b00#8]⟩
  | .pair1 => ⟨.pair, [0b11#8]⟩
  | .pairx01 => ⟨.pair, [0b01#8]⟩
  | .pairx10 => ⟨.pair, [0b10#8]⟩

/-- The format a word of the opcode table is read in when only its width and value are given: the table's own width
where it is not a whole byte; else TXCLK and RXNOTRDY by their values, and every other byte as an operation number
(log 11). -/
def tableFormat (nbits w : Nat) : Format :=
  if nbits ≤ 2 then .pair
  else if nbits ≤ 4 then .op4
  else if w = 0xAA then .txbyte
  else if w = 0xFF then .rxready
  else .op4

/-- The `n` low bytes of `w`, the byte of bit 0 first. -/
def lowBytes : Nat → Nat → List Byte
  | 0, _ => []
  | n + 1, w => BitVec.ofNat 8 w :: lowBytes n (w / 256)

/-- The longest instruction is IDLEB: its number and two 8-byte operands (log 10). -/
def longestInstr : Nat := 17

/-- The bytes of an instruction whose low `nbits` bits are `w`, every bit above them zero. -/
def tableBytes (nbits w : Nat) : List Byte :=
  lowBytes longestInstr (w % 2 ^ nbits)

/-- The same as one code, cut off where the decoded instruction ends. -/
def tableCode (nbits w : Nat) : Code :=
  let f := tableFormat nbits w
  let bytes := tableBytes nbits w
  match decodeBytes f bytes with
  | .instr _ rest => ⟨f, bytes.take (bytes.length - rest.length)⟩
  | .reject _ => ⟨f, bytes.take 1⟩

/-- The instruction the decoder reads from a word of the opcode table (log 11). -/
def decodeTableWord (nbits w : Nat) : Option Instr :=
  match decodeBytes (tableFormat nbits w) (tableBytes nbits w) with
  | .instr i _ => some i
  | .reject _ => none

end Sys2Proof
end

