-- ==== Sys2Proof/Machine/State.lean ====
section
/-! DEFINITION. The state of HXPD as plain data (spec/10_state.md R10 to R28), the reasons a step can stop, and the
state right after reset (R26, spec/70_reset_and_hazards.md R161). -/

namespace Sys2Proof.Machine

/-- PHASE, the sequencer's phase (R15). -/
inductive Phase where
  /-- 0: no read in progress. -/
  | idle
  /-- 1: ENCODE is next. -/
  | build
  /-- 2: XCHG is next, or the transport owns BUF. -/
  | exchange
  /-- 3: VALID is next. -/
  | validate
  /-- 4: LDRAW is next. -/
  | load
  /-- 5: DSTEP is next. -/
  | shift
  /-- 6: FINAL is next. -/
  | finish
  /-- 7: never entered. -/
  | unused
  deriving DecidableEq, Repr

/-- The name of a transport operation, opaque to HXPD (spec/60_exceptions.md R132; log 21). -/
abbrev OpName := String

/-- RESULT, the outcome of the last completed read (R17). -/
inductive Result where
  /-- `None`: no read has completed since reset. -/
  | noOutcome
  | sample (v : SampleWord)
  | notReady
  | integrityViolation
  | transportFault (op : OpName)
  deriving DecidableEq, Repr

/-- The transport's answer to an exchange (spec/42_exchange_validate.md R90). -/
inductive Answer where
  | fail (op : OpName)
  /-- The N + 6 received bytes, ascending addresses. -/
  | bytes (r : List Byte)
  /-- The same received frame given as the 8(N + 6) raw bits on the line, first received first (spec/20_memory.md R34,
  R43, spec/30_encoding.md R54; log 25). -/
  | bits (line : List Bool)
  deriving DecidableEq, Repr

/-- What XCHG hands to the transport (R90, R91). -/
structure Transfer where
  buffer         : List Byte
  length         : Nat
  clockHz        : Nat
  bitsPerUnit    : Nat
  /-- "inter-byte delay = none" (R90). -/
  interByteDelay : Option Nat
  deriving DecidableEq, Repr

/-- The debug observation points (1) to (5) of R146. -/
inductive DebugPoint where
  | timing (clockHz resetUs n bufLen : Nat)
  | outgoing (frame : List Byte)
  | incoming (frame : List Byte)
  | postDecode (out : SampleWord)
  | hostOrder (v : SampleWord)
  deriving DecidableEq, Repr

/-- What the caller may do between operations (spec/00_scope.md R7; log 7). -/
inductive CallerEvent where
  /-- Issue an operation; a wire symbol may stand in its place (log 12). -/
  | issue (c : Code)
  /-- Set the DEBUG input (R22; log 19). -/
  | setDebug (b : Bool)
  /-- Apply HXPD's own reset (R161; log 20). -/
  | reset
  deriving DecidableEq, Repr

/-- What SCALE delivers (spec/44_read_and_scale.md R123): the exact quotient, and its word in the open format
SCALE_FMT (log 14). -/
structure Scaled where
  exact : Rat
  word  : List Bool
  deriving DecidableEq, Repr

/-- BUF: address and byte pairs, addresses strictly rising (spec/20_memory.md R30). An address that is not listed
holds no specified byte, so no entry can equal what it reads as (log 4). -/
abbrev Memory := List Host.Cell

/-- Reasons for which the machine stops. -/
inductive Fault where
  /-- XCHG, when the transport has not answered: "A model gives XCHG a step only when an answer exists" (R93). Safe. -/
  | awaitingTransport
  /-- VALID and RXNOTRDY, when N = 0, so that the address N − 1 does not exist (R39, R74). No accepted read gets
  there. Safe. -/
  | noSuchAddress
  deriving DecidableEq, Repr

/-- Reasons for which the model gives an instruction no meaning. -/
inductive Refusal where
  /-- exec, for an instruction whose meaning is not written. Safe. -/
  | notModelled (mnemonic : String)
  /-- READ, IDLEB and a change of DEBUG while a read is in progress (R145, R20, R28). Safe. -/
  | busy
  /-- IDLEB with operands, and READ under a Clock Profile, outside the range of R73 (R74). Safe. -/
  | illegalProfile
  /-- READ, when N + 6 exceeds the buffer capacity BUF_CAP (R74). Safe. -/
  | bufferTooSmall
  /-- An operation of a read, or a wire symbol, outside its precondition on PHASE or CNT: "No other transition exists"
  (R16). Safe. -/
  | outOfPhase
  /-- step, in PHASE 7: "a model has no step from it" (R15). Safe. -/
  | unusedPhase
  /-- XCHG, for an answer that is not N + 6 bytes, given as bytes or as raw bits:
  there is "no answer shorter or longer" (R90). Safe. -/
  | answerLength
  /-- A wire symbol, when the frame does not hold it at the place concerned (log 12). Safe. -/
  | symbolNotThere
  /-- step, for a code that is no instruction (R62; log 10). Safe. -/
  | undecodable (e : DecodeError)
  deriving DecidableEq, Repr

/-- The state. B1, B2 and the two conditions of R19 are wires and not here; BUF_LEN is computed from N (R21). -/
structure State where
  /-- RAW (R11). -/
  raw       : RawWord
  /-- OUT (R12). -/
  out       : SampleWord
  /-- CNT (R13). -/
  cnt       : CountWord
  /-- PHASE (R15). -/
  phase     : Phase
  /-- RESULT (R17). -/
  result    : Result
  /-- BUF (R23). -/
  buf       : Memory
  /-- CLOCK_HZ (R20). -/
  clockHz   : Nat
  /-- RESET_US (R20). -/
  resetUs   : Nat
  /-- N, the number of idle bytes: derived from the Clock Profile whenever that is written (R21; log 22). -/
  n         : Nat
  /-- DEBUG (R22). -/
  debug     : Bool
  /-- BUF_CAP, `none` for unbounded (R5, D20; log 16). -/
  bufCap    : Option Nat
  /-- The transport's answers that no XCHG has taken yet, oldest first (R92; log 5). -/
  answers   : List Answer
  /-- What the caller has done that no step has served yet, oldest first (log 7). -/
  caller    : List CallerEvent
  /-- The last transfer handed to the transport (R90; log 15). -/
  submitted : Option Transfer
  /-- The raw bits of the current frame handed to the line, first sent first (R53; log 15). -/
  serial    : List Bool
  /-- The raw bits of the current frame received from the line, first received first (R54, spec/20_memory.md R34;
  log 15). -/
  serialIn  : List Bool
  /-- The debug observation points of the current read (R146; log 15). -/
  dump      : List DebugPoint
  /-- The last value SCALE delivered (R123; log 14). -/
  scaled    : Option Scaled
  /-- The model's own counter behind the free values: how often something became unspecified (log 3). -/
  freeTick  : Nat
  deriving DecidableEq, Repr

/-- HXPD right after reset (R26, R161): PHASE = IDLE, RESULT = None, DEBUG = 0 as the spec says; RAW, OUT, CNT zero
(log 1), CLOCK_HZ and RESET_US zero, which is no legal profile, and N with them (log 2), BUF_CAP unbounded (R5), BUF
with nothing listed (log 4), and the model's own fields empty (logs 3, 5, 7, 14, 15). -/
def State.reset : State where
  raw := 0#64
  out := 0#32
  cnt := 0#6
  phase := .idle
  result := .noOutcome
  buf := []
  clockHz := 0
  resetUs := 0
  n := 0
  debug := false
  bufCap := none
  answers := []
  caller := []
  submitted := none
  serial := []
  serialIn := []
  dump := []
  scaled := none
  freeTick := 0

end Sys2Proof.Machine
end

