-- ==== Sys2Proof/Machine/Operands.lean ====
section
/-! DEFINITION. The wire constants, the Timing Calculator's function, the derived constant BUF_LEN, the frame,
and every operand an operation reads: buffer bytes, the READY byte, the receive window, the top pair of RAW. -/

namespace Sys2Proof.Machine

/-- IDLE_BYTE (spec/00_scope.md R5, spec/30_encoding.md R52). -/
def idleByte : Byte := 0x00#8

/-- CLOCK_BYTE (R5, R52). -/
def clockByte : Byte := 0xAA#8

/-- SENTINEL (R5, R55). -/
def sentinelByte : Byte := 0xFF#8

/-- DATA_BYTES (R5). -/
def dataBytes : Nat := 6

/-- UNIT_BITS, bits per transfer unit (R5, R91). -/
def unitBits : Nat := 8

/-- ITER, the iterations of the decode pass (R5, R101). -/
def iterations : Nat := 32

/-- SCALE_DIVISOR (R5, R123). -/
def scaleDivisor : Nat := 4294967295

/-- P_MAX (spec/40_timing_calculator.md R73). -/
def productMax : Nat := 2 ^ 64 - 1

/-- `required_idle_bytes`, the pseudocode of R70. -/
def idleBytes (clockHz resetUs : Nat) : Nat :=
  let p := clockHz * resetUs
  let bytes := p / 1000000 / 8
  if bytes * 1000000 * 8 ≠ p then bytes + 1 else bytes

/-- The range of R73: both inputs positive, their product at most P_MAX. -/
def legalProfile (clockHz resetUs : Nat) : Bool :=
  decide (1 ≤ clockHz) && decide (1 ≤ resetUs) && decide (clockHz * resetUs ≤ productMax)

/-- BUF_LEN, derived from N (spec/10_state.md R21). -/
def State.bufLen (s : State) : Nat := s.n + dataBytes

/-- BUF has room for N + 6 bytes (R74, spec/92_eei_decisions.md D20). -/
def State.fits (s : State) : Bool :=
  match s.bufCap with
  | none => true
  | some cap => decide (s.bufLen ≤ cap)

/-- The Clock Profile is in range (R20, R73). -/
def State.profileLegal (s : State) : Bool := legalProfile s.clockHz s.resetUs

/-- The transmit frame for `n` idle bytes (R51). -/
def frame (n : Nat) : List Byte :=
  List.replicate n idleByte ++ List.replicate dataBytes clockByte

/-- The eight raw bits of a byte, bit 7 first (spec/20_memory.md R34). -/
def byteBits (b : Byte) : List Bool :=
  [b.getLsbD 7, b.getLsbD 6, b.getLsbD 5, b.getLsbD 4, b.getLsbD 3, b.getLsbD 2, b.getLsbD 1, b.getLsbD 0]

/-- The serial image of a run of bytes, ascending addresses (R53). -/
def serialImage (bytes : List Byte) : List Bool := bytes.flatMap byteBits

/-- One received raw bit shifted into a byte at the bottom, so that of eight the first received becomes bit 7
(spec/20_memory.md R34, R43). -/
def shiftIn (b : Byte) (x : Bool) : Byte := (b <<< 1) ||| BitVec.setWidth 8 (BitVec.ofBool x)

/-- The received bytes of a run of raw bits, eight bits to a byte, ascending addresses: raw receive bit j becomes bit
7 − (j mod 8) of byte floor(j / 8), the mirror of the serial image (R34, spec/30_encoding.md R54). -/
def packBits : List Bool → List Byte
  | x7 :: x6 :: x5 :: x4 :: x3 :: x2 :: x1 :: x0 :: rest =>
    [x7, x6, x5, x4, x3, x2, x1, x0].foldl shiftIn 0x00#8 :: packBits rest
  | _ => []

/-- The byte listed at an address, if there is one. -/
def Memory.read? : Memory → Nat → Option Byte
  | [], _ => none
  | (a', b) :: m, a => if a = a' then some b else Memory.read? m a

/-- Byte `a` of BUF: the listed byte, and where nothing is listed an unspecified one (R47; log 4). -/
def State.bufByte (s : State) (a : Nat) : Byte :=
  match Memory.read? s.buf a with
  | some b => b
  | none => Config.freeBufByte s.freeTick a

/-- The `k` bytes of BUF from address `a` on. -/
def State.bufBytes (s : State) (a k : Nat) : List Byte := (List.range k).map (fun i => s.bufByte (a + i))

/-- `MemRead(addr, k)`, defined for addr + k ≤ N + 6 (R32). -/
def State.memRead (s : State) (a k : Nat) : Option Nat :=
  if a + k ≤ s.bufLen then some (beNat (s.bufBytes a k)) else none

/-- The READY byte, at address N − 1 (R54, R94); none where N = 0 has no such address (R74). -/
def State.readyByte? (s : State) : Option Byte :=
  if s.n = 0 then none else some (s.bufByte (s.n - 1))

/-- WINDOW = MemRead(N, 6) (R56); always in range. -/
def State.window (s : State) : Nat := beNat (s.bufBytes s.n dataBytes)

/-- B1 = RAW[63] (spec/10_state.md R14). -/
def State.b1 (s : State) : Bool := s.raw.getLsbD 63

/-- B2 = RAW[62] (R14). -/
def State.b2 (s : State) : Bool := s.raw.getLsbD 62

/-- What XCHG submits to the transport (spec/42_exchange_validate.md R90, R91). -/
def State.transfer (s : State) : Transfer where
  buffer := s.bufBytes 0 s.bufLen
  length := s.bufLen
  clockHz := s.clockHz
  bitsPerUnit := unitBits
  interByteDelay := none

end Sys2Proof.Machine
end

