-- ==== Sys2Proof/Machine/Flags.lean ====
section
/-! DEFINITION. The conditions HXPD computes (spec/10_state.md R19; it has no flag register) and the numeric fields of
RESULT (spec/60_exceptions.md R131). -/

namespace Sys2Proof.Machine

/-- The sentinel condition: equality with 0xFF over all eight bits (R19, R94). -/
def sentinel (ready : Byte) : Bool := decide (ready = sentinelByte)

/-- The mismatch condition B1 ≠ B2 (R19, R101). -/
def State.mismatch (s : State) : Bool := s.b1 != s.b2

/-- DONE: 0 until the first read ends (R131). -/
def Result.done : Result → Bool
  | .noOutcome => false
  | .sample _ => true
  | .notReady => true
  | .integrityViolation => true
  | .transportFault _ => true

/-- CODE, where a read has ended (R131). -/
def Result.code : Result → Option Nat
  | .noOutcome => none
  | .sample _ => some 0
  | .notReady => some 1
  | .integrityViolation => some 2
  | .transportFault _ => some 3

/-- The sample, absent in the abnormal outcomes (R18). -/
def Result.sample? : Result → Option SampleWord
  | .noOutcome => none
  | .sample v => some v
  | .notReady => none
  | .integrityViolation => none
  | .transportFault _ => none

/-- The 3-bit number of a phase (R15). -/
def Phase.number : Phase → Nat
  | .idle => 0
  | .build => 1
  | .exchange => 2
  | .validate => 3
  | .load => 4
  | .shift => 5
  | .finish => 6
  | .unused => 7

end Sys2Proof.Machine
end

