-- ==== Sys2Proof/Machine/Ops.lean ====
section
/-! DEFINITION. The named operations over BUF and the registers, `raise` (spec/60_exceptions.md R137), and the six
micro-operations of a read, each written once; the meanings in the family files call them. -/

namespace Sys2Proof.Machine

/-- What a step answers. -/
abbrev StepResult := Host.Outcome State Fault Refusal

/-! ### BUF -/

/-- The canonical form: addresses strictly rising (log 4). -/
abbrev Memory.wf (m : Memory) : Prop := (m.map Prod.fst).Pairwise (· < ·)

/-- One byte written (spec/20_memory.md R32 with n = 1). -/
def Memory.write : Memory → Nat → Byte → Memory
  | [], a, b => [(a, b)]
  | (a', b') :: m, a, b =>
    if a < a' then (a, b) :: (a', b') :: m
    else if a = a' then (a, b) :: m
    else (a', b') :: Memory.write m a b

/-- Bytes written at ascending addresses from `a` on. -/
def Memory.writeBytes (m : Memory) (a : Nat) : List Byte → Memory
  | [] => m
  | b :: bs => Memory.writeBytes (Memory.write m a b) (a + 1) bs

/-- `MemWrite(addr, k, v)`, most significant byte at addr (R32). -/
def Memory.memWrite (m : Memory) (a k v : Nat) : Memory := Memory.writeBytes m a (beBytes k v)

/-! ### Debug, raise, the end of a read -/

/-- Observation point `p`, exposed when DEBUG = 1 (R146). -/
def State.expose (s : State) (p : DebugPoint) : State :=
  { s with dump := if s.debug then s.dump ++ [p] else s.dump }

/-- BUF becomes unspecified (R47): nothing is listed, and unlisted bytes are fresh free values. -/
def State.discardBuf (s : State) : State :=
  { s with buf := [], freeTick := s.freeTick + 1 }

/-- `raise`: RESULT <- the outcome, PHASE <- IDLE, RAW, OUT, CNT and BUF unspecified, indivisibly (R137). -/
def State.raise (s : State) (outcome : Result) : State :=
  { s.discardBuf with
    result := outcome
    phase := .idle
    raw := Config.freeRaw s.freeTick
    out := Config.freeOut s.freeTick
    cnt := Config.freeCnt s.freeTick }

/-- HXPD's own reset while it runs (spec/70_reset_and_hazards.md R161): a read in progress is abandoned without an
outcome; RAW, OUT, CNT, BUF are unspecified; the profile is to be supplied again (logs 2, 20). BUF_CAP and the two
input queues are not HXPD's. -/
def State.applyReset (s : State) : State :=
  { State.reset with
    raw := Config.freeRaw s.freeTick
    out := Config.freeOut s.freeTick
    cnt := Config.freeCnt s.freeTick
    bufCap := s.bufCap
    answers := s.answers
    caller := s.caller
    freeTick := s.freeTick + 1 }

/-! ### Sequencing -/

/-- Run `k` when `o` is a next state in phase `p`; otherwise `o` stands (spec/44_read_and_scale.md R121). -/
def thenAt (o : StepResult) (p : Phase) (k : State → StepResult) : StepResult :=
  match o with
  | .next s => if s.phase = p then k s else .next s
  | .fault r => .fault r
  | .refused r => .refused r

/-! ### The micro-operations of a read -/

/-- A read is accepted: PHASE <- BUILD (spec/10_state.md R16); the debug dump starts anew with the timing constants
(R146). -/
def State.accept (s : State) : State :=
  { s with phase := .build, dump := [] }.expose (.timing s.clockHz s.resetUs s.n s.bufLen)

/-- What ENCODE leaves (spec/41_encode.md R80): every byte of BUF written, nothing of the new frame sent or
received yet. -/
def State.encoded (s : State) : State :=
  { s with buf := Memory.writeBytes s.buf 0 (frame s.n), phase := .exchange, serial := [], serialIn := [] }.expose
    (.outgoing (frame s.n))

/-- ENCODE (R80). -/
def opEncode (s : State) : StepResult :=
  if s.phase = .build then .next s.encoded else .refused .outOfPhase

/-- HXPD hands its buffer to the transport (spec/42_exchange_validate.md R90): the transfer, and the serial image of
its bytes (spec/30_encoding.md R53). -/
def State.handOver (s : State) : State :=
  { s with submitted := some s.transfer, serial := serialImage s.transfer.buffer }

/-- The transport failed: how much of the frame had gone out, and what had come in, is unspecified (R90; log 15). -/
def State.cutOff (s : State) : State :=
  { s with serial := s.serial.take (Config.freeSent s.freeTick), serialIn := Config.freeArrived s.freeTick }

/-- The raw bits received from the line are in BUF, packed into bytes (R90, spec/20_memory.md R34, R41, R43,
spec/30_encoding.md R54). -/
def State.received (s : State) (line : List Bool) : State :=
  { s with buf := Memory.writeBytes s.buf 0 (packBits line), serialIn := line, phase := .validate }.expose
    (.incoming (packBits line))

/-- XCHG's end when the frame on the line comes back as `line`: as long as the frame sent (R90), or refused. -/
def opReceive (line : List Bool) (rest : List Answer) (s : State) : StepResult :=
  if line.length = unitBits * s.bufLen then .next ({ s.handOver with answers := rest }.received line)
  else .refused .answerLength

/-- XCHG (R90, R93). -/
def opXchg (s : State) : StepResult :=
  if s.phase = .exchange then
    match s.answers with
    | [] => .fault .awaitingTransport
    | .fail op :: rest => .next ({ s.handOver with answers := rest }.cutOff.raise (.transportFault op))
    | .bytes r :: rest => opReceive (serialImage r) rest s
    | .bits line :: rest => opReceive line rest s
  else .refused .outOfPhase

/-- VALID (R94). -/
def opValid (s : State) : StepResult :=
  if s.phase = .validate then
    match s.readyByte? with
    | none => .fault .noSuchAddress
    | some ready => if sentinel ready then .next (s.raise .notReady) else .next { s with phase := .load }
  else .refused .outOfPhase

/-- LDRAW (spec/43_decode.md R100). -/
def opLdraw (s : State) : StepResult :=
  if s.phase = .load then
    .next { s with raw := BitVec.ofNat 64 s.window, out := 0#32, cnt := 0#6, phase := .shift }
  else .refused .outOfPhase

/-- OUT with bit `b` appended at the bottom (R101). -/
def appendBit (out : SampleWord) (b : Bool) : SampleWord :=
  (out <<< 1) ||| BitVec.setWidth 32 (BitVec.ofBool b)

/-- What DSTEP leaves when the pair agrees (R101); after the 32nd, OUT is an observation point (R146). -/
def State.shifted (s : State) : State :=
  { s with
    out := appendBit s.out s.b1
    raw := s.raw <<< 2
    cnt := s.cnt + 1#6
    phase := if s.cnt.toNat + 1 = iterations then .finish else .shift
    dump :=
      if s.debug && decide (s.cnt.toNat + 1 = iterations) then s.dump ++ [.postDecode (appendBit s.out s.b1)]
      else s.dump }

/-- DSTEP (R101); its precondition is PHASE = SHIFT and CNT < 32. -/
def opDstep (s : State) : StepResult :=
  if s.phase = .shift ∧ s.cnt.toNat < iterations then
    if s.mismatch then .next (s.raise .integrityViolation) else .next s.shifted
  else .refused .outOfPhase

/-- Up to `k` DSTEPs, while the phase stays SHIFT (R103, R111). -/
def opDsteps : Nat → State → StepResult
  | 0, s => .next s
  | k + 1, s => thenAt (opDstep s) .shift (opDsteps k)

/-- What FINAL leaves (R102); the read is over, so BUF is unspecified (R47). -/
def State.delivered (s : State) : State :=
  { s.discardBuf with result := .sample s.out, phase := .idle }.expose (.hostOrder s.out)

/-- FINAL (R102); its precondition is PHASE = FINISH and CNT = 32. -/
def opFinal (s : State) : StepResult :=
  if s.phase = .finish ∧ s.cnt.toNat = iterations then .next s.delivered else .refused .outOfPhase

/-- DECODE, the macro LDRAW; DSTEP × 32; FINAL (R103). -/
def opDecode (s : State) : StepResult :=
  thenAt (thenAt (opLdraw s) .shift (opDsteps iterations)) .finish opFinal

/-- XCHG inside READ: while the transport has not answered, the frame is handed over and the read stays in EXCHANGE
(R93; log 13). -/
def opXchgOrWait (s : State) : StepResult :=
  if s.answers = [] then .next s.handOver else opXchg s

/-- The operations of an accepted read, in order, with the three early exits (R120, R121). -/
def opReadSequence (s : State) : StepResult :=
  thenAt (thenAt (thenAt (opEncode s) .exchange opXchgOrWait) .validate opValid) .load opDecode

/-- READ (R120): refused while busy (R145) and under an illegal configuration (R74). -/
def opRead (s : State) : StepResult :=
  if s.phase ≠ .idle then .refused .busy
  else if !s.profileLegal then .refused .illegalProfile
  else if !s.fits then .refused .bufferTooSmall
  else opReadSequence s.accept

/-! ### Wire symbols (log 12) -/

/-- The address of the byte whose turn it is on the line: eight raw bits per byte sent so far (R53). -/
def State.sendAddress (s : State) : Nat := s.serial.length / 8

/-- Symbol `b` goes out, if it is the frame's next byte and stands in the region `lo .. hi − 1` (R51, R52). -/
def opSend (b : Byte) (lo hi : Nat) (s : State) : StepResult :=
  if s.phase = .exchange then
    if lo ≤ s.sendAddress ∧ s.sendAddress < hi ∧ s.bufByte s.sendAddress = b then
      .next { s with serial := s.serial ++ byteBits b }
    else .refused .symbolNotThere
  else .refused .outOfPhase

/-- The pair `(x, y)` is met at the top of RAW (R57): DSTEP on it. -/
def opPair (x y : Bool) (s : State) : StepResult :=
  if s.phase = .shift ∧ s.cnt.toNat < iterations then
    if s.b1 = x ∧ s.b2 = y then opDstep s else .refused .symbolNotThere
  else .refused .outOfPhase

/-- The READY byte 0xFF is met (R55): VALID on it. -/
def opNotReady (s : State) : StepResult :=
  if s.phase = .validate then
    match s.readyByte? with
    | none => .fault .noSuchAddress
    | some ready => if sentinel ready then opValid s else .refused .symbolNotThere
  else .refused .outOfPhase

end Sys2Proof.Machine
end

