-- ==== Sys2Proof/Machine/Decoder.lean ====
section
/-! DEFINITION. The decoder's operations LDRAW, DSTEP, FINAL, DECODE, and the pure function Decode48
(spec/43_decode.md R100 to R111). -/

namespace Sys2Proof.Machine

/-- LDRAW (R100). -/
def execLdraw (s : State) : StepResult := opLdraw s

/-- DSTEP (R101). -/
def execDstep (s : State) : StepResult := opDstep s

/-- FINAL (R102). -/
def execFinal (s : State) : StepResult := opFinal s

/-- DECODE (R103). -/
def execDecode (s : State) : StepResult := opDecode s

/-- `k` iterations of Decode48's loop on raw and out (R103). -/
def decodeLoop : Nat → RawWord → SampleWord → Result
  | 0, _, out => .sample out
  | k + 1, raw, out =>
    if raw.getLsbD 63 = raw.getLsbD 62 then decodeLoop k (raw <<< 2) (appendBit out (raw.getLsbD 63))
    else .integrityViolation

/-- Decode48, the pure function of the 48-bit window (R103). -/
def decode48 (w : BitVec 48) : Result := decodeLoop iterations (BitVec.setWidth 64 w) 0#32

/-- The caller's signed reading of a sample word's low 24 bits, sext_32 of the field S (R109); HXPD does not apply
it. -/
def signedReading (v : SampleWord) : SampleWord := BitVec.signExtend 32 (BitVec.setWidth 24 v)

end Sys2Proof.Machine
end

