-- ==== Sys2Proof/Machine/Exchange.lean ====
section
/-! DEFINITION. The operations XCHG and VALID (spec/42_exchange_validate.md R90 to R96). -/

namespace Sys2Proof.Machine

/-- XCHG (R90). -/
def execXchg (s : State) : StepResult := opXchg s

/-- VALID (R94). -/
def execValid (s : State) : StepResult := opValid s

end Sys2Proof.Machine
end

