-- ==== Sys2Proof/Machine/Frame.lean ====
section
/-! DEFINITION. The buffer constructor's operation ENCODE (spec/41_encode.md R80 to R84). -/

namespace Sys2Proof.Machine

/-- ENCODE (R80). -/
def execEncode (s : State) : StepResult := opEncode s

end Sys2Proof.Machine
end

