-- ==== Sys2Proof/Machine/Reading.lean ====
section
/-! DEFINITION. The operations READ and SCALE (spec/44_read_and_scale.md R120 to R125). -/

namespace Sys2Proof.Machine

/-- READ (R120). -/
def execRead (s : State) : StepResult := opRead s

/-- The exact quotient s / (2^32 − 1) (R123). -/
def scaleQuotient (v : SampleWord) : Rat := mkRat v.toNat scaleDivisor

/-- SCALE s (R123): pure, in any phase; it delivers the exact quotient and its word in SCALE_FMT (log 14). -/
def execScale (v : SampleWord) (s : State) : StepResult :=
  .next { s with scaled := some ⟨scaleQuotient v, Config.scaleFmt (scaleQuotient v)⟩ }

end Sys2Proof.Machine
end

