-- ==== Sys2Proof/Machine/Timing.lean ====
section
/-! DEFINITION. The Timing Calculator's operation IDLEB (spec/40_timing_calculator.md R70 to R74). -/

namespace Sys2Proof.Machine

/-- IDLEB clock_hz, reset_us (R70): evaluated when the Clock Profile is set (spec/10_state.md R21), so it sets the
profile, and its result becomes N (and N + 6 BUF_LEN); only while PHASE = IDLE (R20); no result outside the range of
R73 (R74; log 9). -/
def execIdleb (clockHz resetUs : Nat) (s : State) : StepResult :=
  if s.phase ≠ .idle then .refused .busy
  else if legalProfile clockHz resetUs then
    .next { s with clockHz := clockHz, resetUs := resetUs, n := idleBytes clockHz resetUs }
  else .refused .illegalProfile

end Sys2Proof.Machine
end

