-- ==== Sys2Proof/Machine/Wire.lean ====
section
/-! DEFINITION. The seven wire symbols (spec/30_encoding.md R52, R55, R57, R59): what HXPD does when it sends the symbol
or meets it in the received frame (log 12). -/

namespace Sys2Proof.Machine

/-- TXIDLE, at addresses 0 .. N − 1 (R51, R52). -/
def execTxidle (s : State) : StepResult := opSend idleByte 0 s.n s

/-- TXCLK, at addresses N .. N + 5 (R51, R52). -/
def execTxclk (s : State) : StepResult := opSend clockByte s.n s.bufLen s

/-- RXNOTRDY, the READY byte 0xFF (R55): NotReady. -/
def execRxnotrdy (s : State) : StepResult := opNotReady s

/-- PAIR0 (R57): logical bit 0. -/
def execPair0 (s : State) : StepResult := opPair false false s

/-- PAIR1 (R57): logical bit 1. -/
def execPair1 (s : State) : StepResult := opPair true true s

/-- PAIRX01 (R57, R59): integrity violation. -/
def execPairx01 (s : State) : StepResult := opPair false true s

/-- PAIRX10 (R57, R59): integrity violation. -/
def execPairx10 (s : State) : StepResult := opPair true false s

end Sys2Proof.Machine
end

