-- ==== Sys2Proof/Machine/Dispatch.lean ====
section
/-! DEFINITION. One arm per instruction. -/

namespace Sys2Proof.Machine

def exec (i : Instr) (s : State) : Host.Outcome State Fault Refusal :=
  match i with
  | .idleb clockHz resetUs => Sys2Proof.Machine.execIdleb clockHz resetUs s
  | .encode => Sys2Proof.Machine.execEncode s
  | .xchg => Sys2Proof.Machine.execXchg s
  | .valid => Sys2Proof.Machine.execValid s
  | .ldraw => Sys2Proof.Machine.execLdraw s
  | .dstep => Sys2Proof.Machine.execDstep s
  | .final => Sys2Proof.Machine.execFinal s
  | .decode => Sys2Proof.Machine.execDecode s
  | .read => Sys2Proof.Machine.execRead s
  | .scale v => Sys2Proof.Machine.execScale v s
  | .txidle => Sys2Proof.Machine.execTxidle s
  | .txclk => Sys2Proof.Machine.execTxclk s
  | .rxnotrdy => Sys2Proof.Machine.execRxnotrdy s
  | .pair0 => Sys2Proof.Machine.execPair0 s
  | .pair1 => Sys2Proof.Machine.execPair1 s
  | .pairx01 => Sys2Proof.Machine.execPairx01 s
  | .pairx10 => Sys2Proof.Machine.execPairx10 s

end Sys2Proof.Machine
end

