-- ==== Sys2Proof/Machine/Fetch.lean ====
section
/-! DEFINITION. Where the next operation comes from (spec/10_state.md R15, R16; log 7), and how an instruction is put
there (log 8). -/

namespace Sys2Proof.Machine

/-- The operation the sequencer performs next in a phase (R15, R16). -/
def Phase.operation : Phase → Option Instr
  | .idle => none
  | .build => some .encode
  | .exchange => some .xchg
  | .validate => some .valid
  | .load => some .ldraw
  | .shift => some .dstep
  | .finish => some .final
  | .unused => none

/-- The reference configuration, where the profile held is no legal one (spec/00_scope.md R5). -/
def State.withLegalProfile (s : State) : State :=
  if s.profileLegal then s else { s with clockHz := 160000, resetUs := 100, n := idleBytes 160000 100 }

/-- BUF with every byte listed. -/
def State.withFullBuf (s : State) (bytes : List Byte) : State :=
  { s with buf := Memory.writeBytes s.buf 0 bytes }

/-- A received frame whose READY byte is 0x00 and whose window is zero. -/
def zeroFrame (n : Nat) : List Byte := List.replicate (n + dataBytes) 0x00#8

/-- A state in which BUF holds `bytes` and PHASE is `p`; a state already in phase `p` is left as it is. -/
def State.inPhase (s : State) (p : Phase) (bytes : List Byte) : State :=
  if s.phase = p then s else { s.withFullBuf bytes with phase := p }

/-- A state in phase EXCHANGE with the frame in BUF and `sent` on the line, where TXIDLE and TXCLK have their place. -/
def State.sending (s : State) (sent : List Byte) : State :=
  { s.withFullBuf (frame s.n) with phase := .exchange, serial := serialImage sent }

/-- A state in phase SHIFT, past the padding, with `raw` in RAW. -/
def State.facingPair (s : State) (raw : RawWord) : State :=
  { s with phase := .shift, cnt := 8#6, raw := raw }

/-- The state meets instruction `i`'s precondition line, changed only in what that line speaks of (log 8): PHASE and
CNT for the sequencer's place, a legal profile for a read to have been accepted under, the frame or the answer the
operation starts from, the symbol at its place. -/
def State.placedAt (s : State) (i : Instr) : State :=
  let t := s.withLegalProfile
  match i with
  | .idleb _ _ => { s with phase := .idle }
  | .encode => { t with phase := .build }
  | .xchg =>
    let u := t.inPhase .exchange (frame t.n)
    { u with answers := if u.answers = [] then [.bytes (zeroFrame u.n)] else u.answers }
  | .valid => t.inPhase .validate (zeroFrame t.n)
  | .ldraw => t.inPhase .load (zeroFrame t.n)
  | .dstep => { t with phase := .shift, cnt := if t.cnt.toNat < iterations then t.cnt else 0#6 }
  | .final => { t with phase := .finish, cnt := 32#6 }
  | .decode => t.inPhase .load (zeroFrame t.n)
  | .read => { t with phase := .idle }
  | .scale _ => s
  | .txidle => t.sending []
  | .txclk => t.sending (List.replicate t.n idleByte)
  | .rxnotrdy => { t.withFullBuf (List.replicate t.bufLen sentinelByte) with phase := .validate }
  | .pair0 => t.facingPair 0x0000000000000000#64
  | .pair1 => t.facingPair 0xC000000000000000#64
  | .pairx01 => t.facingPair 0x4000000000000000#64
  | .pairx10 => t.facingPair 0x8000000000000000#64

/-- A code at the front of what the caller has issued, the state placed where its instruction runs. -/
def State.withCode (s : State) (c : Code) : State :=
  let t := match decode c with
    | .instr i _ => s.placedAt i
    | .reject _ => s
  { t with caller := .issue c :: t.caller }

end Sys2Proof.Machine
end

