-- ==== Sys2Proof/Machine/Step.lean ====
section
/-! DEFINITION. One step of HXPD: serve what the caller has done, else perform the sequencer's next operation
(spec/10_state.md R15, R16; log 7). -/

namespace Sys2Proof.Machine

/-- One step. With nothing issued and PHASE = IDLE, HXPD does nothing (spec/70_reset_and_hazards.md R161). -/
def step (s : State) : Host.Outcome State Fault Refusal :=
  match s.caller with
  | .issue c :: rest =>
    match decode c with
    | .instr i _ => exec i { s with caller := rest }
    | .reject e => .refused (.undecodable e)
  | .setDebug b :: rest =>
    if s.phase = .idle then .next { s with caller := rest, debug := b } else .refused .busy
  | .reset :: rest => .next { s with caller := rest }.applyReset
  | [] =>
    match s.phase.operation with
    | some i => exec i s
    | none => if s.phase = .idle then .next s else .refused .unusedPhase

/-- The instruction of an opcode-table word, stored where step takes its next one (log 8). -/
def State.withFetchWord (s : State) (nbits w : Nat) : State := s.withCode (tableCode nbits w)

end Sys2Proof.Machine
end

