-- ==== Sys2Proof/Safety.lean ====
section
/-! DEFINITION. The terms the statements are written in: what a raise leaves (spec/60_exceptions.md R137), the invariant
of the machine, the transitions of PHASE (spec/10_state.md R16), what DEBUG may change (R22). -/

namespace Sys2Proof.Machine

/-- `t` is `s` after `raise o` (R137): RESULT and PHASE as given; RAW, OUT, CNT and BUF may hold anything, so may the
model's counter of unspecified values; every other field stays. -/
def Raised (s : State) (o : Result) (t : State) : Prop :=
  t.result = o ∧ t.phase = .idle ∧
  t = { s with
    result := o, phase := .idle
    raw := t.raw, out := t.out, cnt := t.cnt, buf := t.buf, freeTick := t.freeTick }

/-- What holds of every state of a run, and is kept by every step. -/
structure Inv (s : State) : Prop where
  /-- BUF is in its canonical form (log 4). -/
  bufWf : Memory.wf s.buf
  /-- BUF lists addresses 0 .. N + 5 only (spec/20_memory.md R30). -/
  bufInRange : ∀ c ∈ s.buf, c.1 < s.bufLen
  /-- BUF does not outlive a read (spec/10_state.md R23). -/
  bufIdle : s.phase = .idle ∨ s.phase = .build → s.buf = []
  /-- From ENCODE to the end of the read every byte of BUF is specified (R23). -/
  bufFull : s.phase ≠ .idle → s.phase ≠ .build → ∀ a < s.bufLen, (Memory.read? s.buf a).isSome = true
  /-- N is what IDLEB computes from the Clock Profile (spec/10_state.md R21). -/
  derivedN : s.n = idleBytes s.clockHz s.resetUs
  /-- A read runs only under a legal configuration (spec/40_timing_calculator.md R74). -/
  busyLegal : s.phase ≠ .idle → s.profileLegal = true ∧ s.fits = true
  /-- Until the exchange, BUF holds ENCODE's frame (spec/20_memory.md R43). -/
  exchangeFrame : s.phase = .exchange → s.bufBytes 0 s.bufLen = frame s.n
  /-- What is on the line in EXCHANGE is the beginning of the frame (spec/30_encoding.md R51). -/
  serialPrefix : s.phase = .exchange → ∃ k, s.serial = serialImage ((frame s.n).take k)
  /-- From XCHG to the end of the read, raw receive bit j is bit 7 − (j mod 8) of BUF[floor(j / 8)]
  (spec/30_encoding.md R54, spec/20_memory.md R34). -/
  receivedBits : s.phase ≠ .idle → s.phase ≠ .build → s.phase ≠ .exchange → ∀ j < 8 * s.bufLen,
    s.serialIn[j]? = some ((s.bufByte (j / 8)).getLsbD (7 - j % 8))
  /-- PHASE 7 is never entered (R15). -/
  phaseUsed : s.phase ≠ .unused
  /-- CNT < 32 in SHIFT, CNT = 32 in FINISH (R13, R15). -/
  shiftCount : s.phase = .shift → s.cnt.toNat < 32
  finishCount : s.phase = .finish → s.cnt.toNat = 32
  /-- The padding pairs (spec/43_decode.md R106): until CNT = 8, OUT is zero and RAW's top 16 − 2·CNT bits are. -/
  padding : s.phase = .shift → s.cnt.toNat ≤ 8 → s.out = 0#32 ∧ s.raw.toNat < 2 ^ (48 + 2 * s.cnt.toNat)
  /-- After them OUT has CNT − 8 significant bits. -/
  outBits : s.phase = .shift ∨ s.phase = .finish → 8 ≤ s.cnt.toNat → s.out.toNat < 2 ^ (s.cnt.toNat - 8)
  /-- Bits 31..24 of a delivered sample are zero (R61). -/
  sampleBits : ∀ v, s.result = .sample v → v.toNat < 2 ^ 24

/-- The transitions of PHASE that one operation of the sequencer may make (R16). -/
def phaseTransitions : List (Phase × Phase) :=
  [(.build, .exchange), (.exchange, .validate), (.exchange, .idle), (.validate, .load), (.validate, .idle),
   (.load, .shift), (.shift, .shift), (.shift, .finish), (.shift, .idle), (.finish, .idle)]

/-- A state without its DEBUG input and its debug dump (R22, R146). -/
def State.eraseDebug (s : State) : State := { s with debug := false, dump := [] }

/-- An outcome likewise. -/
def eraseDebugOutcome : StepResult → StepResult
  | .next s => .next s.eraseDebug
  | .fault r => .fault r
  | .refused r => .refused r

/-- Six bytes as the 48-bit window WIN[0] ## ... ## WIN[5] (spec/30_encoding.md R56). -/
def windowOf (win : Nat → Byte) : BitVec 48 := win 0 ++ win 1 ++ win 2 ++ win 3 ++ win 4 ++ win 5

/-- The window in BUF's data region, WIN[k] = BUF[N + k] (R54). -/
def State.windowBits (s : State) : BitVec 48 := windowOf (fun k => s.bufByte (s.n + k))

/-- Both bits of pair `p` of a window agree (R57). -/
def pairAgrees (w : BitVec 48) (p : Nat) : Prop := w.getLsbD (47 - 2 * p) = w.getLsbD (46 - 2 * p)

/-- `w` = EXPAND(`v`): every bit of `v` doubled (spec/00_scope.md R9). -/
def Expands (v : BitVec 24) (w : BitVec 48) : Prop :=
  ∀ k < 24, w.getLsbD (2 * k + 1) = v.getLsbD k ∧ w.getLsbD (2 * k) = v.getLsbD k

/-- A transport's answer of the only shape there is under `n` idle bytes: a failure, or N + 6 bytes
(spec/42_exchange_validate.md R90), which are 8(N + 6) raw bits (log 25). -/
def Answer.fitsFrame (a : Answer) (n : Nat) : Prop :=
  match a with
  | .fail _ => True
  | .bytes r => r.length = n + 6
  | .bits line => line.length = 8 * (n + 6)

/-- The raw bits an answer puts on the line, none when the transport fails (spec/20_memory.md R34; log 25). -/
def Answer.line? : Answer → Option (List Bool)
  | .fail _ => none
  | .bytes r => some (serialImage r)
  | .bits line => some line

/-- The received bytes of an answer, none when the transport fails (R90). -/
def Answer.bytes? : Answer → Option (List Byte)
  | .fail _ => none
  | .bytes r => some r
  | .bits line => some (packBits line)

/-- The outcome of a read that received the bytes `r`, with N = `n` fixed (spec/44_read_and_scale.md R120). -/
def frameOutcome (n : Nat) (r : List Byte) : Result :=
  if r.getD (n - 1) 0#8 = 0xFF#8 then .notReady else decode48 (windowOf fun k => r.getD (n + k) 0#8)

/-- Read(A), the outcome of a read as a function of the transport's answer, with N = `n` fixed (R120). -/
def readOutcome (n : Nat) : Answer → Result
  | .fail op => .transportFault op
  | .bytes r => frameOutcome n r
  | .bits line => frameOutcome n (packBits line)

/-- READ's precondition (spec/44_read_and_scale.md R120): PHASE = IDLE and a legal configuration; N is what IDLEB
computes from the Clock Profile (spec/10_state.md R21), as in every state of a run (`Inv.derivedN`). -/
def State.acceptsRead (s : State) : Prop :=
  s.phase = .idle ∧ s.profileLegal = true ∧ s.fits = true ∧ s.n = idleBytes s.clockHz s.resetUs

end Sys2Proof.Machine
end

