-- ==== Sys2Proof/Certificates/Slice0/Obligations.lean ====
section
/-! DEFINITION. The statements for the provers, file by file of spec/. Where one says "unspecified", nothing is claimed of
the value. A statement that rests on the model's own choice says so and names the log entry. -/

open Sys2Proof Sys2Proof.Machine

/-! ### Reset and the invariant (spec/10_state.md, spec/70_reset_and_hazards.md) -/

/-- R26, R161: PHASE = IDLE, RESULT = None (DONE = 0), DEBUG = 0 after reset. -/
def Obligations.ResetLeavesIdleWithNoOutcome : Prop :=
  State.reset.phase = .idle ∧ State.reset.result = .noOutcome ∧ State.reset.result.done = false ∧
    State.reset.debug = false

/-- R161: a reset during a read abandons it: no outcome is delivered, the Clock Profile is to be supplied again. That a
reset is an entry of the caller's queue, and that the two queues and BUF_CAP survive it, is the model's choice
(log 20). -/
def Obligations.ResetDuringReadAbandonsIt : Prop :=
  ∀ (s : State) (rest : List CallerEvent), s.caller = .reset :: rest →
    ∃ t, step s = .next t ∧ t.phase = .idle ∧ t.result = .noOutcome ∧ t.debug = false ∧ t.profileLegal = false ∧
      t.answers = s.answers ∧ t.caller = rest ∧ t.bufCap = s.bufCap

/-- The invariant holds at reset. -/
def Obligations.InvHoldsAtReset : Prop := Inv State.reset

/-- Every step keeps the invariant: BUF canonical, in range and fully specified during a read; a legal configuration;
PHASE never 7; CNT's bounds (R13, R15); the frame untouched until the exchange (R43); the received
bits in BUF from then on (R34, R54); the padding (R106); a delivered
sample's bits 31..24 zero (R61). -/
def Obligations.EveryStepKeepsInv : Prop :=
  ∀ s t : State, Inv s → step s = .next t → Inv t

/-- R16, "No other transition exists": what the sequencer may do to PHASE in one operation, and where READ may end. -/
def Obligations.NoOtherPhaseTransition : Prop :=
  (∀ s t : State, s.caller = [] → s.phase ≠ .idle → step s = .next t → (s.phase, t.phase) ∈ phaseTransitions) ∧
  (∀ s t : State, exec .read s = .next t → s.phase = .idle ∧ (t.phase = .idle ∨ t.phase = .exchange))

/-- R17: RESULT is written only at the transition to IDLE, by the end of a read, and then DONE = 1. -/
def Obligations.ResultWrittenOnlyAtEndOfRead : Prop :=
  ∀ (i : Instr) (s t : State), exec i s = .next t → t.result ≠ s.result →
    t.phase = .idle ∧ t.result.done = true ∧ (s.phase ≠ .idle ∨ i = .read)

/-- R20, R21: no operation changes DEBUG or BUF_CAP; only IDLEB changes the Clock Profile and N, none does during a read,
and N stays what IDLEB computes from the profile. -/
def Obligations.ConfigurationFixedDuringRead : Prop :=
  ∀ (i : Instr) (s t : State), exec i s = .next t →
    t.debug = s.debug ∧ t.bufCap = s.bufCap ∧
    ((s.phase ≠ .idle ∨ ∀ c r, i ≠ .idleb c r) → t.clockHz = s.clockHz ∧ t.resetUs = s.resetUs ∧ t.n = s.n) ∧
    (s.n = idleBytes s.clockHz s.resetUs → t.n = idleBytes t.clockHz t.resetUs)

/-- R22, R146: DEBUG is purely observational: without the dump and the input itself, every operation and every step
does the same whatever DEBUG is. -/
def Obligations.DebugHasNoBehaviouralEffect : Prop :=
  (∀ (i : Instr) (s : State), eraseDebugOutcome (exec i s) = eraseDebugOutcome (exec i s.eraseDebug)) ∧
  (∀ s : State, eraseDebugOutcome (step s) = eraseDebugOutcome (step s.eraseDebug))

/-- R131: CODE and DONE of each outcome; R18: a sample only in Sample(v). -/
def Obligations.OutcomeCodesAndSample : Prop :=
  (∀ r : Result, r.done = false ↔ r = .noOutcome) ∧
  (∀ v, (Result.sample v).code = some 0) ∧ Result.notReady.code = some 1 ∧
  Result.integrityViolation.code = some 2 ∧ (∀ op, (Result.transportFault op).code = some 3) ∧
  (∀ (r : Result) (v : SampleWord), r.sample? = some v ↔ r = .sample v)

/-! ### Encoding and the step (spec/30_encoding.md) -/

/-- Decode and encode agree, every operand at every value the contract of R73 admits. The operand bytes are the model's
choice (log 10). -/
def Obligations.DecodeOfEncode : Prop :=
  ∀ i : Instr, i.wellFormed = true → Sys2Proof.decode (Sys2Proof.encode i) = .instr i []

/-- Every code has one meaning: what decodes is what the encoder writes, nothing left over (log 10). -/
def Obligations.EncodeOfDecode : Prop :=
  ∀ (c : Code) (i : Instr) (rest : List Byte),
    Sys2Proof.decode c = .instr i rest → rest = [] ∧ Sys2Proof.encode i = c

/-- R52, R55, R57, R62: words written out from the tables. The four operand bytes after SCALE's number are in no table:
they are the model's choice (log 10). -/
def Obligations.SpecWordsDecode : Prop :=
  Sys2Proof.decode ⟨.op4, [0b00000001#8]⟩ = .instr .encode [] ∧
  Sys2Proof.decode ⟨.op4, [0b00000101#8]⟩ = .instr .dstep [] ∧
  Sys2Proof.decode ⟨.op4, [0b00001000#8]⟩ = .instr .read [] ∧
  Sys2Proof.decode ⟨.op4, [0b00001001#8, 0x00#8, 0x80#8, 0x00#8, 0x00#8]⟩ = .instr (.scale 0x00800000#32) [] ∧
  Sys2Proof.decode ⟨.txbyte, [0b10101010#8]⟩ = .instr .txclk [] ∧
  Sys2Proof.decode ⟨.rxready, [0b11111111#8]⟩ = .instr .rxnotrdy [] ∧
  Sys2Proof.decode ⟨.pair, [0b01#8]⟩ = .instr .pairx01 [] ∧
  Sys2Proof.decode ⟨.pair, [0b10#8]⟩ = .instr .pairx10 []

/-- R62: operation numbers 0xA to 0xF are refused; R52: so is every transmit byte but 0x00 and 0xAA. -/
def Obligations.UnassignedNumbersRefused : Prop :=
  ∀ (s : State) (b : Byte) (bytes : List Byte) (rest : List CallerEvent),
    (10 ≤ b.toNat → b.toNat < 16 → s.caller = .issue ⟨.op4, b :: bytes⟩ :: rest →
      step s = .refused (.undecodable .unassignedOp)) ∧
    (b ≠ 0x00#8 → b ≠ 0xAA#8 → s.caller = .issue ⟨.txbyte, b :: bytes⟩ :: rest →
      step s = .refused (.undecodable .notTransmitted))

/-- A step runs the decoded instruction the caller has issued, with the entry taken off the queue. -/
def Obligations.StepRunsIssuedInstruction : Prop :=
  ∀ (s : State) (c : Code) (rest : List CallerEvent) (i : Instr),
    s.caller = .issue c :: rest → Sys2Proof.decode c = .instr i [] →
    step s = exec i { s with caller := rest }

/-- R15: with nothing issued, a step runs the operation PHASE names; R161: in IDLE HXPD does nothing. -/
def Obligations.StepRunsOperationOfPhase : Prop :=
  ∀ s : State, s.caller = [] →
    (s.phase = .idle → step s = .next s) ∧ (s.phase = .build → step s = exec .encode s) ∧
    (s.phase = .exchange → step s = exec .xchg s) ∧ (s.phase = .validate → step s = exec .valid s) ∧
    (s.phase = .load → step s = exec .ldraw s) ∧ (s.phase = .shift → step s = exec .dstep s) ∧
    (s.phase = .finish → step s = exec .final s) ∧ (s.phase = .unused → step s = .refused .unusedPhase)

/-- R22: DEBUG is an input; the caller sets it between reads (log 19). -/
def Obligations.CallerSetsDebugBetweenReads : Prop :=
  ∀ (s : State) (b : Bool) (rest : List CallerEvent), s.caller = .setDebug b :: rest →
    (s.phase = .idle → step s = .next { s with caller := rest, debug := b }) ∧
    (s.phase ≠ .idle → step s = .refused .busy)

/-! ### Memory (spec/20_memory.md) -/

/-- R32: MemRead and MemWrite are big-endian, and a write leaves every other byte alone. -/
def Obligations.MemReadMemWriteBigEndian : Prop :=
  ∀ (s : State) (a k v : Nat), a + k ≤ s.bufLen →
    s.memRead a k = some (∑ j ∈ Finset.range k, (s.bufByte (a + j)).toNat * 2 ^ (8 * (k - 1 - j))) ∧
    (∀ j < k, { s with buf := Memory.memWrite s.buf a k v }.bufByte (a + j) =
      BitVec.ofNat 8 (v / 2 ^ (8 * (k - 1 - j)))) ∧
    (∀ x, x < a ∨ a + k ≤ x → { s with buf := Memory.memWrite s.buf a k v }.bufByte x = s.bufByte x)

/-! ### The Timing Calculator (spec/40_timing_calculator.md) -/

/-- R70, R71: IDLEB on legal operands makes N = ceil(P / 8 000 000) the configuration; it changes the Clock Profile and N
and nothing else. That it sets the profile it is given is the model's choice (log 9). -/
def Obligations.IdlebComputesCeiling : Prop :=
  ∀ (c r : Nat) (s : State), s.phase = .idle → 1 ≤ c → 1 ≤ r → c * r ≤ 2 ^ 64 - 1 →
    ∃ t, exec (.idleb c r) s = .next t ∧ t.n = ⌈((c * r : Nat) : ℚ) / 8000000⌉₊ ∧ t.bufLen = t.n + 6 ∧
      t = { s with clockHz := c, resetUs := r, n := t.n }

/-- R72: the bound is tight, N ≥ 1, and N is the least number of bytes whose duration, 8N / clock_hz seconds, is at
least reset_us microseconds. -/
def Obligations.IdlebBoundIsTight : Prop :=
  ∀ (c r : Nat) (s : State), s.phase = .idle → 0 < c → 0 < r → c * r ≤ 2 ^ 64 - 1 →
    ∃ t, exec (.idleb c r) s = .next t ∧
      t.n * 8 * 1000000 ≥ c * r ∧ (t.n - 1) * 8 * 1000000 < c * r ∧ 1 ≤ t.n ∧
      ∀ m : Nat, (r : ℚ) / 1000000 ≤ 8 * m / c ↔ t.n ≤ m

/-- R74: outside the range IDLEB has no result and READ does not start; nor does it when N + 6 exceeds BUF_CAP. -/
def Obligations.IllegalConfigurationRefused : Prop :=
  (∀ (c r : Nat) (s : State), s.phase = .idle → (c = 0 ∨ r = 0 ∨ 2 ^ 64 - 1 < c * r) →
    exec (.idleb c r) s = .refused .illegalProfile) ∧
  (∀ s : State, s.phase = .idle → (s.clockHz = 0 ∨ s.resetUs = 0 ∨ 2 ^ 64 - 1 < s.clockHz * s.resetUs) →
    exec .read s = .refused .illegalProfile) ∧
  (∀ (s : State) (cap : Nat), s.phase = .idle → s.profileLegal = true → s.bufCap = some cap → cap < s.n + 6 →
    exec .read s = .refused .bufferTooSmall)

/-- R145: READ is refused while a read is in progress. IDLEB is refused then too, since here it sets the Clock Profile
(log 9), which R20 lets the caller write in IDLE only; that a refusal is this outcome, by name, is log 17. -/
def Obligations.BusyRefusesReadAndIdleb : Prop :=
  ∀ s : State, s.phase ≠ .idle →
    exec .read s = .refused .busy ∧ ∀ c r, exec (.idleb c r) s = .refused .busy

/-- R16: an operation of a read outside its precondition has no transition, and so no meaning; a symbol that is not at
its place likewise (log 12, log 17). -/
def Obligations.OutsidePreconditionRefused : Prop :=
  ∀ s : State,
    (s.phase ≠ .build → exec .encode s = .refused .outOfPhase) ∧
    (s.phase ≠ .exchange → exec .xchg s = .refused .outOfPhase ∧ exec .txidle s = .refused .outOfPhase ∧
      exec .txclk s = .refused .outOfPhase) ∧
    (s.phase ≠ .validate → exec .valid s = .refused .outOfPhase ∧ exec .rxnotrdy s = .refused .outOfPhase) ∧
    (s.phase ≠ .load → exec .ldraw s = .refused .outOfPhase ∧ exec .decode s = .refused .outOfPhase) ∧
    (s.phase ≠ .shift ∨ 32 ≤ s.cnt.toNat → ∀ i ∈ [Instr.dstep, .pair0, .pair1, .pairx01, .pairx10],
      exec i s = .refused .outOfPhase) ∧
    (s.phase ≠ .finish ∨ s.cnt.toNat ≠ 32 → exec .final s = .refused .outOfPhase)

/-! ### The buffer constructor (spec/41_encode.md) -/

/-- R80: ENCODE builds the frame, N bytes 0x00 then six bytes 0xAA; PHASE <- EXCHANGE; nothing else changes but the
model's records of the line and of the debug point (2). -/
def Obligations.EncodeBuildsFrame : Prop :=
  ∀ s : State, s.phase = .build →
    ∃ t, exec .encode s = .next t ∧ t.phase = .exchange ∧
      (∀ a < s.n, t.bufByte a = 0x00#8) ∧ (∀ k < 6, t.bufByte (s.n + k) = 0xAA#8) ∧
      (∀ a, s.n + 6 ≤ a → t.bufByte a = s.bufByte a) ∧
      t = { s with buf := t.buf, phase := .exchange, serial := [], serialIn := [], dump := t.dump } ∧
      t.dump = if s.debug then s.dump ++ [.outgoing (t.bufBytes 0 (s.n + 6))] else s.dump

/-- R81: ENCODE's result depends on N alone, whatever BUF and the registers held. -/
def Obligations.EncodeDependsOnNAlone : Prop :=
  ∀ s₁ s₂ : State, s₁.phase = .build → s₂.phase = .build → s₁.n = s₂.n →
    ∃ t₁ t₂, exec .encode s₁ = .next t₁ ∧ exec .encode s₂ = .next t₂ ∧ t₁.phase = t₂.phase ∧
      t₁.bufBytes 0 t₁.bufLen = t₂.bufBytes 0 t₂.bufLen

/-! ### Exchange and validation (spec/42_exchange_validate.md) -/

/-- R90, R91: XCHG with an answer of bytes: the frame in BUF is submitted at CLOCK_HZ, eight bits per unit, no delay,
length N + 6; BUF becomes exactly the received bytes; PHASE <- VALIDATE; the registers stay. The records of the line
and of the debug point are the model's (log 15). -/
def Obligations.XchgReceivesBytes : Prop :=
  ∀ (s : State) (r : List Byte) (rest : List Answer), s.phase = .exchange → s.answers = .bytes r :: rest →
    r.length = s.n + 6 →
    ∃ t, exec .xchg s = .next t ∧ t.phase = .validate ∧ t.bufBytes 0 (s.n + 6) = r ∧
      (∀ a, s.n + 6 ≤ a → t.bufByte a = s.bufByte a) ∧
      t.submitted = some ⟨s.bufBytes 0 (s.n + 6), s.n + 6, s.clockHz, 8, none⟩ ∧
      t = { s with
        buf := t.buf, phase := .validate, answers := rest, submitted := t.submitted, serial := t.serial
        serialIn := t.serialIn
        dump := if s.debug then s.dump ++ [.incoming r] else s.dump }

/-- R34, R54: the first bit received becomes bit 7, bytes in ascending address order: raw receive bit j is stored at bit
7 − (j mod 8) of BUF[floor(j / 8)], whether the answer is given in raw bits or in bytes. That an answer may be given in
raw bits, and the record of them, are the model's (logs 15, 25). -/
def Obligations.XchgStoresReceivedBits : Prop :=
  ∀ (s : State) (a : Answer) (l : List Bool) (rest : List Answer), s.phase = .exchange → s.answers = a :: rest →
    a.line? = some l → a.fitsFrame s.n →
    ∃ t, exec .xchg s = .next t ∧ t.phase = .validate ∧ t.serialIn = l ∧ l.length = 8 * (s.n + 6) ∧
      (∀ j < 8 * (s.n + 6), l[j]? = some ((t.bufByte (j / 8)).getLsbD (7 - j % 8))) ∧
      (∀ i, s.n + 6 ≤ i → t.bufByte i = s.bufByte i) ∧ some (t.bufBytes 0 (s.n + 6)) = a.bytes? ∧
      t = { s with
        buf := t.buf, phase := .validate, answers := rest, submitted := t.submitted, serial := t.serial
        serialIn := l
        dump := if s.debug then s.dump ++ [.incoming (t.bufBytes 0 (s.n + 6))] else s.dump }

/-- R132: XCHG with a failure raises TransportFault with the transport's own name for the operation. What of the frame
was on the line by then is unspecified (log 15). -/
def Obligations.XchgFailureRaisesTransportFault : Prop :=
  ∀ (s : State) (op : OpName) (rest : List Answer), s.phase = .exchange → s.answers = .fail op :: rest →
    ∃ t, exec .xchg s = .next t ∧ t.answers = rest ∧
      t.submitted = some ⟨s.bufBytes 0 (s.n + 6), s.n + 6, s.clockHz, 8, none⟩ ∧
      Raised { s with answers := rest, submitted := t.submitted, serial := t.serial, serialIn := t.serialIn }
        (.transportFault op) t

/-- R93: XCHG has a step only when an answer exists (log 5); R90: no answer is shorter or longer than N + 6 bytes
(log 6), be it given as bytes or as raw bits (log 25). -/
def Obligations.XchgNeedsAnAnswer : Prop :=
  ∀ s : State, s.phase = .exchange →
    (s.answers = [] → exec .xchg s = .fault .awaitingTransport) ∧
    (∀ r rest, s.answers = .bytes r :: rest → r.length ≠ s.n + 6 → exec .xchg s = .refused .answerLength) ∧
    (∀ line rest, s.answers = .bits line :: rest → line.length ≠ 8 * (s.n + 6) →
      exec .xchg s = .refused .answerLength)

/-- R51, R53: what ENCODE and XCHG put on the line is 8N raw bits of 0, then 24 times 1, 0; raw bit j is bit
7 − (j mod 8) of byte floor(j / 8) of the frame. When the transport fails, what went out is a beginning of that, of
unspecified length. The record of the line is the model's (log 15). -/
def Obligations.SerialImageOfTheFrame : Prop :=
  ∀ (s : State) (a : Answer) (rest : List Answer), s.phase = .build → s.answers = a :: rest → a.fitsFrame s.n →
    ∃ t u, exec .encode s = .next t ∧ exec .xchg t = .next u ∧
      ((∀ op, a ≠ .fail op) →
        u.serial = List.replicate (8 * s.n) false ++ (List.replicate 24 [true, false]).flatten ∧
        ∀ j < 8 * (s.n + 6), u.serial[j]? = some ((t.bufByte (j / 8)).getLsbD (7 - j % 8))) ∧
      (∀ op, a = .fail op →
        u.serial <+: List.replicate (8 * s.n) false ++ (List.replicate 24 [true, false]).flatten)

/-- R94, R95: VALID passes on every READY byte but 0xFF, and then only PHASE changes. -/
def Obligations.ValidPassesWhenReady : Prop :=
  ∀ s : State, s.phase = .validate → 1 ≤ s.n → s.bufByte (s.n - 1) ≠ 0xFF#8 →
    exec .valid s = .next { s with phase := .load }

/-- R94, R95, R133: VALID raises NotReady on 0xFF, whatever the other bytes of the frame are. With N = 0, which no
accepted read has (R74), there is no such byte: that VALID then stops with a fault of its own is the model's choice
(log 22). -/
def Obligations.ValidRaisesNotReady : Prop :=
  ∀ s : State, s.phase = .validate →
    (1 ≤ s.n → s.bufByte (s.n - 1) = 0xFF#8 → ∃ t, exec .valid s = .next t ∧ Raised s .notReady t) ∧
    (s.n = 0 → exec .valid s = .fault .noSuchAddress)

/-! ### The decoder (spec/43_decode.md) -/

/-- R100: LDRAW loads the zero-extended window, BUF[N] in RAW[47:40] down to BUF[N+5] in RAW[7:0], and clears OUT and
CNT; nothing else changes, BUF among it. -/
def Obligations.LdrawLoadsWindow : Prop :=
  ∀ s : State, s.phase = .load →
    ∃ t, exec .ldraw s = .next t ∧ t.raw.extractLsb' 48 16 = 0#16 ∧
      (∀ k < 6, t.raw.extractLsb' (40 - 8 * k) 8 = s.bufByte (s.n + k)) ∧
      t = { s with raw := t.raw, out := 0#32, cnt := 0#6, phase := .shift }

/-- R101: DSTEP on an agreeing pair appends B1 to OUT, shifts RAW by two, counts, and goes to FINISH after the 32nd. -/
def Obligations.DstepConsumesPair : Prop :=
  ∀ s : State, s.phase = .shift → s.cnt.toNat < 32 → s.raw.getLsbD 63 = s.raw.getLsbD 62 →
    ∃ t, exec .dstep s = .next t ∧
      t.out.toNat = (2 * s.out.toNat + (s.raw.getLsbD 63).toNat) % 2 ^ 32 ∧
      t.raw.toNat = 4 * s.raw.toNat % 2 ^ 64 ∧ t.cnt.toNat = s.cnt.toNat + 1 ∧
      t.phase = (if s.cnt.toNat = 31 then .finish else .shift) ∧
      t = { s with out := t.out, raw := t.raw, cnt := t.cnt, phase := t.phase, dump := t.dump } ∧
      t.dump = if s.debug ∧ s.cnt.toNat = 31 then s.dump ++ [.postDecode t.out] else s.dump

/-- R101, R134: DSTEP on a disagreeing pair raises IntegrityViolation. -/
def Obligations.DstepMismatchRaises : Prop :=
  ∀ s : State, s.phase = .shift → s.cnt.toNat < 32 → s.raw.getLsbD 63 ≠ s.raw.getLsbD 62 →
    ∃ t, exec .dstep s = .next t ∧ Raised s .integrityViolation t

/-- R102: FINAL delivers OUT unchanged and ends the read; BUF is unspecified afterwards (R47; log 4); with DEBUG = 1 the
value is exposed (R146) in the model's record (log 15). -/
def Obligations.FinalDeliversOut : Prop :=
  ∀ s : State, s.phase = .finish → s.cnt.toNat = 32 →
    ∃ t, exec .final s = .next t ∧
      t = { s with
        result := .sample s.out, phase := .idle, buf := t.buf, freeTick := t.freeTick
        dump := if s.debug then s.dump ++ [.hostOrder s.out] else s.dump }

/-- R103: DECODE, the sequence of micro-operations, is the pure function Decode48 of the window; it ends the read and
leaves the configuration and the boundary records alone. -/
def Obligations.DecodeIsDecode48 : Prop :=
  ∀ s : State, s.phase = .load →
    ∃ t, exec .decode s = .next t ∧ t.result = decode48 s.windowBits ∧
      t = { s with
        result := t.result, phase := .idle, raw := t.raw, out := t.out, cnt := t.cnt, buf := t.buf
        dump := t.dump, freeTick := t.freeTick } ∧
      ((∃ v, t.result = .sample v) → t.raw = 0#64 ∧ t.cnt = 32#6 ∧ t.result = .sample t.out)

/-- The two macros are the sequences of single operations the sequencer performs (R103: LDRAW, 32 DSTEPs, FINAL; R120:
ENCODE, XCHG, VALID before them), an early exit resting in IDLE (R121): running DECODE or READ as one instruction, the
model's choice (log 13), gives what stepping gives. READ is stepped from the state its acceptance leaves (R16). -/
def Obligations.MacrosAreTheirSteps : Prop :=
  (∀ s : State, s.phase = .load → s.caller = [] → exec .decode s = Host.Core.run Sys2Proof.core 34 s) ∧
  (∀ s : State, s.acceptsRead → s.caller = [] → s.answers ≠ [] →
    exec .read s = Host.Core.run Sys2Proof.core 37 s.accept)

/-- R106: the first eight iterations consume the padding. -/
def Obligations.FirstEightIterationsConsumePadding : Prop :=
  ∀ s : State, s.phase = .load → s.caller = [] →
    ∃ u : State, Host.Core.run Sys2Proof.core 9 s = .next u ∧ u.phase = .shift ∧
      u.raw.toNat = s.windowBits.toNat * 2 ^ 16 ∧ u.out = 0#32 ∧ u.cnt = 8#6

/-- R105, R106: the first bad pair `p` raises in iteration 8 + p, with CNT = 8 + p. -/
def Obligations.FirstBadPairRaisesInItsIteration : Prop :=
  ∀ (s : State) (p : Nat), s.phase = .load → s.caller = [] → p < 24 →
    (∀ q < p, pairAgrees s.windowBits q) → ¬ pairAgrees s.windowBits p →
    ∃ u t : State, Host.Core.run Sys2Proof.core (9 + p) s = .next u ∧ u.phase = .shift ∧ u.cnt.toNat = 8 + p ∧
      step u = .next t ∧ Raised u .integrityViolation t

/-- R104: a legal window gives the sample whose bit 23 − p is the first bit of pair p, bits 31..24 zero. -/
def Obligations.LegalWindowGivesSample : Prop :=
  ∀ w : BitVec 48, (∀ p < 24, pairAgrees w p) →
    ∃ v, decode48 w = .sample v ∧ v.extractLsb' 24 8 = 0#8 ∧
      (∀ p < 24, v.getLsbD (23 - p) = w.getLsbD (47 - 2 * p)) ∧
      v.toNat = ∑ p ∈ Finset.range 24, (w.getLsbD (47 - 2 * p)).toNat * 2 ^ (23 - p)

/-- R105: the violation exactly when some pair disagrees, with the rule's bitwise test and its set form. -/
def Obligations.ViolationIffSomePairDisagrees : Prop :=
  ∀ w : BitVec 48,
    (decode48 w = .integrityViolation ↔ ∃ p < 24, ¬ pairAgrees w p) ∧
    (decode48 w = .integrityViolation ↔ (w ^^^ (w >>> 1)) &&& 0x555555555555#48 ≠ 0#48) ∧
    (decode48 w = .integrityViolation ↔ ∀ v, ¬ Expands v w)

/-- R110: the round trip, and that no other window gives a sample. -/
def Obligations.ExpandRoundTrip : Prop :=
  (∀ (v : BitVec 24) (w : BitVec 48), Expands v w → decode48 w = .sample (BitVec.setWidth 32 v)) ∧
  (∀ (w : BitVec 48) (x : SampleWord), decode48 w = .sample x → ∃ v : BitVec 24, Expands v w)

/-- R108: the zero window decodes to the sample 0; R109: the caller's signed reading of a sample word's field S. -/
def Obligations.ZeroWindowAndSignedReading : Prop :=
  decode48 0#48 = .sample 0#32 ∧
  ∀ v : SampleWord, (signedReading v).toInt =
    if v.toNat % 2 ^ 24 < 2 ^ 23 then ((v.toNat % 2 ^ 24 : Nat) : Int) else ((v.toNat % 2 ^ 24 : Nat) : Int) - 2 ^ 24

/-! ### The whole read and scaling (spec/44_read_and_scale.md) -/

/-- R120: READ under an accepted configuration, with the transport's answer A, ends with Read(A), and takes exactly that
answer; the configuration stays, and the frame was what was submitted. That READ is one step is the model's choice
(log 13). -/
def Obligations.ReadEndsWithReadOfAnswer : Prop :=
  ∀ (s : State) (a : Answer) (rest : List Answer), s.acceptsRead → s.answers = a :: rest → a.fitsFrame s.n →
    ∃ t, exec .read s = .next t ∧ t.phase = .idle ∧ t.answers = rest ∧
      t.result = readOutcome s.n a ∧
      t.submitted = some ⟨List.replicate s.n 0x00#8 ++ List.replicate 6 0xAA#8, s.n + 6, s.clockHz, 8, none⟩ ∧
      t.clockHz = s.clockHz ∧ t.resetUs = s.resetUs ∧ t.n = s.n ∧ t.debug = s.debug ∧ t.bufCap = s.bufCap ∧
      t.caller = s.caller ∧ t.scaled = s.scaled

/-- R93: without an answer the read stays in EXCHANGE, its frame handed over, no outcome written; XCHG then has no step.
That READ itself reaches this state is the model's choice (log 13). -/
def Obligations.ReadWithoutAnswerWaits : Prop :=
  ∀ s : State, s.acceptsRead → s.answers = [] →
    ∃ t, exec .read s = .next t ∧ t.phase = .exchange ∧ t.result = s.result ∧
      t.bufBytes 0 (s.n + 6) = List.replicate s.n 0x00#8 ++ List.replicate 6 0xAA#8 ∧
      t.raw = s.raw ∧ t.out = s.out ∧ t.cnt = s.cnt ∧ t.clockHz = s.clockHz ∧ t.resetUs = s.resetUs ∧ t.n = s.n ∧
      exec .xchg t = .fault .awaitingTransport

/-- R25: the outcome of a read is a function of the configuration and of the transport's answer in that read alone:
nothing of an earlier read, of RAW, OUT, CNT, BUF or RESULT, bears on it. -/
def Obligations.ReadIndependentOfEarlierReads : Prop :=
  ∀ (s₁ s₂ : State) (a : Answer) (rest₁ rest₂ : List Answer), s₁.acceptsRead → s₂.acceptsRead →
    s₁.clockHz = s₂.clockHz → s₁.resetUs = s₂.resetUs → a.fitsFrame s₁.n →
    s₁.answers = a :: rest₁ → s₂.answers = a :: rest₂ →
    ∃ t₁ t₂, exec .read s₁ = .next t₁ ∧ exec .read s₂ = .next t₂ ∧ t₁.phase = .idle ∧ t₂.phase = .idle ∧
      t₁.result = t₂.result

/-- R60, R54: the received bytes at addresses 0 .. N − 2 never change the outcome. -/
def Obligations.IgnoredBytesDoNotMatter : Prop :=
  ∀ (s : State) (a a' : Answer) (r r' : List Byte) (rest : List Answer), s.acceptsRead → a.fitsFrame s.n →
    a'.fitsFrame s.n → a.bytes? = some r → a'.bytes? = some r' → (∀ i, s.n - 1 ≤ i → r[i]? = r'[i]?) →
    ∃ t t', exec .read { s with answers := a :: rest } = .next t ∧
      exec .read { s with answers := a' :: rest } = .next t' ∧ t.result = t'.result

/-- R146: with DEBUG = 1 a read that delivers a sample exposes the five observation points, in order; with DEBUG = 0
nothing. The record is the model's (log 15). -/
def Obligations.ReadExposesDebugPoints : Prop :=
  ∀ (s : State) (a : Answer) (r : List Byte) (rest : List Answer) (v : SampleWord), s.acceptsRead →
    s.answers = a :: rest → a.fitsFrame s.n → a.bytes? = some r → readOutcome s.n a = .sample v →
    ∃ t, exec .read s = .next t ∧
      t.dump = if s.debug then
        [.timing s.clockHz s.resetUs s.n (s.n + 6),
         .outgoing (List.replicate s.n 0x00#8 ++ List.replicate 6 0xAA#8), .incoming r, .postDecode v, .hostOrder v]
      else []

/-- R123: SCALE delivers s / 4294967295 exactly, in every state, and touches nothing else. The record it is delivered in
is the model's own (log 14). -/
def Obligations.ScaleIsExactQuotient : Prop :=
  ∀ (v : SampleWord) (s : State),
    ∃ t x, exec (.scale v) s = .next t ∧ t.scaled = some x ∧ x.exact = (v.toNat : ℚ) / 4294967295 ∧
      t = { s with scaled := t.scaled }

/-- R124: the range of SCALE on the samples HXPD can produce, that it reaches 1 only at 0xFFFFFFFF, and that it keeps
the unsigned order. -/
def Obligations.ScaleRange : Prop :=
  ∀ (v w : SampleWord) (s t u : State) (x y : Scaled), exec (.scale v) s = .next t → t.scaled = some x →
    exec (.scale w) s = .next u → u.scaled = some y →
    0 ≤ x.exact ∧ (v.toNat < 2 ^ 24 → x.exact ≤ 65793 / 16843009) ∧ (x.exact = 1 ↔ v = 0xFFFFFFFF#32) ∧
      (v.toNat < w.toNat ↔ x.exact < y.exact)

/-! ### The wire symbols (spec/30_encoding.md) -/

/-- R51, R52: TXIDLE at its place sends eight raw bits of 0, TXCLK four times 1, 0; nothing else changes. That a symbol
is an instruction of its own is the model's choice (log 12). -/
def Obligations.TransmitSymbolsSendTheirBits : Prop :=
  ∀ s : State, s.phase = .exchange →
    (s.serial.length / 8 < s.n → s.bufByte (s.serial.length / 8) = 0x00#8 →
      exec .txidle s = .next { s with serial := s.serial ++ List.replicate 8 false }) ∧
    (s.n ≤ s.serial.length / 8 → s.serial.length / 8 < s.n + 6 → s.bufByte (s.serial.length / 8) = 0xAA#8 →
      exec .txclk s =
        .next { s with serial := s.serial ++ [true, false, true, false, true, false, true, false] })

/-- R55: the READY byte 0xFF raises NotReady. The model's choice as above (log 12). -/
def Obligations.ReadySymbolRaisesNotReady : Prop :=
  ∀ s : State, s.phase = .validate → 1 ≤ s.n →
    (s.bufByte (s.n - 1) = 0xFF#8 → ∃ t, exec .rxnotrdy s = .next t ∧ Raised s .notReady t) ∧
    (s.bufByte (s.n - 1) ≠ 0xFF#8 → exec .rxnotrdy s = .refused .symbolNotThere)

/-- R57: PAIR0 and PAIR1, met at the top of RAW, append 0 and 1 and shift the window on. The model's choice as above
(log 12). -/
def Obligations.LegalPairsAppendTheirBit : Prop :=
  ∀ (s : State) (b : Bool), s.phase = .shift → s.cnt.toNat < 32 → s.raw.getLsbD 63 = b → s.raw.getLsbD 62 = b →
    ∃ t, exec (if b then .pair1 else .pair0) s = .next t ∧ exec .dstep s = .next t ∧
      t.out.toNat = (2 * s.out.toNat + b.toNat) % 2 ^ 32 ∧ t.raw.toNat = 4 * s.raw.toNat % 2 ^ 64 ∧
      t.cnt.toNat = s.cnt.toNat + 1 ∧
      t = { s with out := t.out, raw := t.raw, cnt := t.cnt, phase := t.phase, dump := t.dump }

/-- R59: PAIRX01 and PAIRX10, met at the top of RAW, raise IntegrityViolation. The model's choice as above (log 12). -/
def Obligations.IllegalPairsRaise : Prop :=
  ∀ (s : State) (b : Bool), s.phase = .shift → s.cnt.toNat < 32 → s.raw.getLsbD 63 = b → s.raw.getLsbD 62 = !b →
    ∃ t, exec (if b then .pairx10 else .pairx01) s = .next t ∧ Raised s .integrityViolation t

/-- A pair symbol that is not the one at the top of RAW, and a transmit symbol that is not the frame's next byte, have
no meaning there: the model's choice (log 12). -/
def Obligations.AbsentSymbolRefused : Prop :=
  ∀ s : State,
    (s.phase = .shift → s.cnt.toNat < 32 → ∀ x y : Bool, ¬ (s.raw.getLsbD 63 = x ∧ s.raw.getLsbD 62 = y) →
      exec (if x then (if y then .pair1 else .pairx10) else (if y then .pairx01 else .pair0)) s =
        .refused .symbolNotThere) ∧
    (s.phase = .exchange → s.bufByte (s.serial.length / 8) ≠ 0x00#8 ∨ s.n ≤ s.serial.length / 8 →
      exec .txidle s = .refused .symbolNotThere) ∧
    (s.phase = .exchange → s.bufByte (s.serial.length / 8) ≠ 0xAA#8 ∨ s.serial.length / 8 < s.n ∨
      s.n + 6 ≤ s.serial.length / 8 → exec .txclk s = .refused .symbolNotThere)
end

