-- ==== Sys2Proof/Laws/State.lean ====
section
/-! SUPPORT. One lemma per field per update of State, true by rfl, so that no proof unfolds a record update; and the
same for the values computed from the configuration. -/

namespace Sys2Proof.Machine

variable (s : State)

/-! ### expose -/

@[simp] theorem State.expose_raw (p : DebugPoint) : (s.expose p).raw = s.raw := rfl
@[simp] theorem State.expose_out (p : DebugPoint) : (s.expose p).out = s.out := rfl
@[simp] theorem State.expose_cnt (p : DebugPoint) : (s.expose p).cnt = s.cnt := rfl
@[simp] theorem State.expose_phase (p : DebugPoint) : (s.expose p).phase = s.phase := rfl
@[simp] theorem State.expose_result (p : DebugPoint) : (s.expose p).result = s.result := rfl
@[simp] theorem State.expose_buf (p : DebugPoint) : (s.expose p).buf = s.buf := rfl
@[simp] theorem State.expose_clockHz (p : DebugPoint) : (s.expose p).clockHz = s.clockHz := rfl
@[simp] theorem State.expose_resetUs (p : DebugPoint) : (s.expose p).resetUs = s.resetUs := rfl
@[simp] theorem State.expose_n (p : DebugPoint) : (s.expose p).n = s.n := rfl
@[simp] theorem State.expose_debug (p : DebugPoint) : (s.expose p).debug = s.debug := rfl
@[simp] theorem State.expose_bufCap (p : DebugPoint) : (s.expose p).bufCap = s.bufCap := rfl
@[simp] theorem State.expose_answers (p : DebugPoint) : (s.expose p).answers = s.answers := rfl
@[simp] theorem State.expose_caller (p : DebugPoint) : (s.expose p).caller = s.caller := rfl
@[simp] theorem State.expose_submitted (p : DebugPoint) : (s.expose p).submitted = s.submitted := rfl
@[simp] theorem State.expose_serial (p : DebugPoint) : (s.expose p).serial = s.serial := rfl
@[simp] theorem State.expose_serialIn (p : DebugPoint) : (s.expose p).serialIn = s.serialIn := rfl
@[simp] theorem State.expose_dump (p : DebugPoint) :
    (s.expose p).dump =
      if s.debug then s.dump ++ [p] else s.dump := rfl
@[simp] theorem State.expose_scaled (p : DebugPoint) : (s.expose p).scaled = s.scaled := rfl
@[simp] theorem State.expose_freeTick (p : DebugPoint) : (s.expose p).freeTick = s.freeTick := rfl
@[simp] theorem State.expose_bufLen (p : DebugPoint) : (s.expose p).bufLen = s.bufLen := rfl
@[simp] theorem State.expose_profileLegal (p : DebugPoint) : (s.expose p).profileLegal = s.profileLegal := rfl
@[simp] theorem State.expose_fits (p : DebugPoint) : (s.expose p).fits = s.fits := rfl
@[simp] theorem State.expose_transfer (p : DebugPoint) : (s.expose p).transfer = s.transfer := rfl

/-! ### discardBuf -/

@[simp] theorem State.discardBuf_raw : (s.discardBuf).raw = s.raw := rfl
@[simp] theorem State.discardBuf_out : (s.discardBuf).out = s.out := rfl
@[simp] theorem State.discardBuf_cnt : (s.discardBuf).cnt = s.cnt := rfl
@[simp] theorem State.discardBuf_phase : (s.discardBuf).phase = s.phase := rfl
@[simp] theorem State.discardBuf_result : (s.discardBuf).result = s.result := rfl
@[simp] theorem State.discardBuf_buf : (s.discardBuf).buf = [] := rfl
@[simp] theorem State.discardBuf_clockHz : (s.discardBuf).clockHz = s.clockHz := rfl
@[simp] theorem State.discardBuf_resetUs : (s.discardBuf).resetUs = s.resetUs := rfl
@[simp] theorem State.discardBuf_n : (s.discardBuf).n = s.n := rfl
@[simp] theorem State.discardBuf_debug : (s.discardBuf).debug = s.debug := rfl
@[simp] theorem State.discardBuf_bufCap : (s.discardBuf).bufCap = s.bufCap := rfl
@[simp] theorem State.discardBuf_answers : (s.discardBuf).answers = s.answers := rfl
@[simp] theorem State.discardBuf_caller : (s.discardBuf).caller = s.caller := rfl
@[simp] theorem State.discardBuf_submitted : (s.discardBuf).submitted = s.submitted := rfl
@[simp] theorem State.discardBuf_serial : (s.discardBuf).serial = s.serial := rfl
@[simp] theorem State.discardBuf_serialIn : (s.discardBuf).serialIn = s.serialIn := rfl
@[simp] theorem State.discardBuf_dump : (s.discardBuf).dump = s.dump := rfl
@[simp] theorem State.discardBuf_scaled : (s.discardBuf).scaled = s.scaled := rfl
@[simp] theorem State.discardBuf_freeTick : (s.discardBuf).freeTick = s.freeTick + 1 := rfl
@[simp] theorem State.discardBuf_bufLen : (s.discardBuf).bufLen = s.bufLen := rfl
@[simp] theorem State.discardBuf_profileLegal : (s.discardBuf).profileLegal = s.profileLegal := rfl
@[simp] theorem State.discardBuf_fits : (s.discardBuf).fits = s.fits := rfl

/-! ### raise -/

@[simp] theorem State.raise_raw (o : Result) : (s.raise o).raw = Config.freeRaw s.freeTick := rfl
@[simp] theorem State.raise_out (o : Result) : (s.raise o).out = Config.freeOut s.freeTick := rfl
@[simp] theorem State.raise_cnt (o : Result) : (s.raise o).cnt = Config.freeCnt s.freeTick := rfl
@[simp] theorem State.raise_phase (o : Result) : (s.raise o).phase = .idle := rfl
@[simp] theorem State.raise_result (o : Result) : (s.raise o).result = o := rfl
@[simp] theorem State.raise_buf (o : Result) : (s.raise o).buf = [] := rfl
@[simp] theorem State.raise_clockHz (o : Result) : (s.raise o).clockHz = s.clockHz := rfl
@[simp] theorem State.raise_resetUs (o : Result) : (s.raise o).resetUs = s.resetUs := rfl
@[simp] theorem State.raise_n (o : Result) : (s.raise o).n = s.n := rfl
@[simp] theorem State.raise_debug (o : Result) : (s.raise o).debug = s.debug := rfl
@[simp] theorem State.raise_bufCap (o : Result) : (s.raise o).bufCap = s.bufCap := rfl
@[simp] theorem State.raise_answers (o : Result) : (s.raise o).answers = s.answers := rfl
@[simp] theorem State.raise_caller (o : Result) : (s.raise o).caller = s.caller := rfl
@[simp] theorem State.raise_submitted (o : Result) : (s.raise o).submitted = s.submitted := rfl
@[simp] theorem State.raise_serial (o : Result) : (s.raise o).serial = s.serial := rfl
@[simp] theorem State.raise_serialIn (o : Result) : (s.raise o).serialIn = s.serialIn := rfl
@[simp] theorem State.raise_dump (o : Result) : (s.raise o).dump = s.dump := rfl
@[simp] theorem State.raise_scaled (o : Result) : (s.raise o).scaled = s.scaled := rfl
@[simp] theorem State.raise_freeTick (o : Result) : (s.raise o).freeTick = s.freeTick + 1 := rfl
@[simp] theorem State.raise_bufLen (o : Result) : (s.raise o).bufLen = s.bufLen := rfl
@[simp] theorem State.raise_profileLegal (o : Result) : (s.raise o).profileLegal = s.profileLegal := rfl
@[simp] theorem State.raise_fits (o : Result) : (s.raise o).fits = s.fits := rfl

/-! ### accept -/

@[simp] theorem State.accept_raw : (s.accept).raw = s.raw := rfl
@[simp] theorem State.accept_out : (s.accept).out = s.out := rfl
@[simp] theorem State.accept_cnt : (s.accept).cnt = s.cnt := rfl
@[simp] theorem State.accept_phase : (s.accept).phase = .build := rfl
@[simp] theorem State.accept_result : (s.accept).result = s.result := rfl
@[simp] theorem State.accept_buf : (s.accept).buf = s.buf := rfl
@[simp] theorem State.accept_clockHz : (s.accept).clockHz = s.clockHz := rfl
@[simp] theorem State.accept_resetUs : (s.accept).resetUs = s.resetUs := rfl
@[simp] theorem State.accept_n : (s.accept).n = s.n := rfl
@[simp] theorem State.accept_debug : (s.accept).debug = s.debug := rfl
@[simp] theorem State.accept_bufCap : (s.accept).bufCap = s.bufCap := rfl
@[simp] theorem State.accept_answers : (s.accept).answers = s.answers := rfl
@[simp] theorem State.accept_caller : (s.accept).caller = s.caller := rfl
@[simp] theorem State.accept_submitted : (s.accept).submitted = s.submitted := rfl
@[simp] theorem State.accept_serial : (s.accept).serial = s.serial := rfl
@[simp] theorem State.accept_serialIn : (s.accept).serialIn = s.serialIn := rfl
@[simp] theorem State.accept_dump :
    (s.accept).dump =
      if s.debug then [.timing s.clockHz s.resetUs s.n s.bufLen] else [] := rfl
@[simp] theorem State.accept_scaled : (s.accept).scaled = s.scaled := rfl
@[simp] theorem State.accept_freeTick : (s.accept).freeTick = s.freeTick := rfl
@[simp] theorem State.accept_bufLen : (s.accept).bufLen = s.bufLen := rfl
@[simp] theorem State.accept_profileLegal : (s.accept).profileLegal = s.profileLegal := rfl
@[simp] theorem State.accept_fits : (s.accept).fits = s.fits := rfl
@[simp] theorem State.accept_transfer : (s.accept).transfer = s.transfer := rfl

/-! ### encoded -/

@[simp] theorem State.encoded_raw : (s.encoded).raw = s.raw := rfl
@[simp] theorem State.encoded_out : (s.encoded).out = s.out := rfl
@[simp] theorem State.encoded_cnt : (s.encoded).cnt = s.cnt := rfl
@[simp] theorem State.encoded_phase : (s.encoded).phase = .exchange := rfl
@[simp] theorem State.encoded_result : (s.encoded).result = s.result := rfl
@[simp] theorem State.encoded_buf : (s.encoded).buf = Memory.writeBytes s.buf 0 (frame s.n) := rfl
@[simp] theorem State.encoded_clockHz : (s.encoded).clockHz = s.clockHz := rfl
@[simp] theorem State.encoded_resetUs : (s.encoded).resetUs = s.resetUs := rfl
@[simp] theorem State.encoded_n : (s.encoded).n = s.n := rfl
@[simp] theorem State.encoded_debug : (s.encoded).debug = s.debug := rfl
@[simp] theorem State.encoded_bufCap : (s.encoded).bufCap = s.bufCap := rfl
@[simp] theorem State.encoded_answers : (s.encoded).answers = s.answers := rfl
@[simp] theorem State.encoded_caller : (s.encoded).caller = s.caller := rfl
@[simp] theorem State.encoded_submitted : (s.encoded).submitted = s.submitted := rfl
@[simp] theorem State.encoded_serial : (s.encoded).serial = [] := rfl
@[simp] theorem State.encoded_serialIn : (s.encoded).serialIn = [] := rfl
@[simp] theorem State.encoded_dump :
    (s.encoded).dump =
      if s.debug then s.dump ++ [.outgoing (frame s.n)] else s.dump := rfl
@[simp] theorem State.encoded_scaled : (s.encoded).scaled = s.scaled := rfl
@[simp] theorem State.encoded_freeTick : (s.encoded).freeTick = s.freeTick := rfl
@[simp] theorem State.encoded_bufLen : (s.encoded).bufLen = s.bufLen := rfl
@[simp] theorem State.encoded_profileLegal : (s.encoded).profileLegal = s.profileLegal := rfl
@[simp] theorem State.encoded_fits : (s.encoded).fits = s.fits := rfl

/-! ### handOver -/

@[simp] theorem State.handOver_raw : (s.handOver).raw = s.raw := rfl
@[simp] theorem State.handOver_out : (s.handOver).out = s.out := rfl
@[simp] theorem State.handOver_cnt : (s.handOver).cnt = s.cnt := rfl
@[simp] theorem State.handOver_phase : (s.handOver).phase = s.phase := rfl
@[simp] theorem State.handOver_result : (s.handOver).result = s.result := rfl
@[simp] theorem State.handOver_buf : (s.handOver).buf = s.buf := rfl
@[simp] theorem State.handOver_clockHz : (s.handOver).clockHz = s.clockHz := rfl
@[simp] theorem State.handOver_resetUs : (s.handOver).resetUs = s.resetUs := rfl
@[simp] theorem State.handOver_n : (s.handOver).n = s.n := rfl
@[simp] theorem State.handOver_debug : (s.handOver).debug = s.debug := rfl
@[simp] theorem State.handOver_bufCap : (s.handOver).bufCap = s.bufCap := rfl
@[simp] theorem State.handOver_answers : (s.handOver).answers = s.answers := rfl
@[simp] theorem State.handOver_caller : (s.handOver).caller = s.caller := rfl
@[simp] theorem State.handOver_submitted : (s.handOver).submitted = some s.transfer := rfl
@[simp] theorem State.handOver_serial : (s.handOver).serial = serialImage s.transfer.buffer := rfl
@[simp] theorem State.handOver_serialIn : (s.handOver).serialIn = s.serialIn := rfl
@[simp] theorem State.handOver_dump : (s.handOver).dump = s.dump := rfl
@[simp] theorem State.handOver_scaled : (s.handOver).scaled = s.scaled := rfl
@[simp] theorem State.handOver_freeTick : (s.handOver).freeTick = s.freeTick := rfl
@[simp] theorem State.handOver_bufLen : (s.handOver).bufLen = s.bufLen := rfl
@[simp] theorem State.handOver_profileLegal : (s.handOver).profileLegal = s.profileLegal := rfl
@[simp] theorem State.handOver_fits : (s.handOver).fits = s.fits := rfl
@[simp] theorem State.handOver_transfer : (s.handOver).transfer = s.transfer := rfl

/-! ### cutOff -/

@[simp] theorem State.cutOff_raw : (s.cutOff).raw = s.raw := rfl
@[simp] theorem State.cutOff_out : (s.cutOff).out = s.out := rfl
@[simp] theorem State.cutOff_cnt : (s.cutOff).cnt = s.cnt := rfl
@[simp] theorem State.cutOff_phase : (s.cutOff).phase = s.phase := rfl
@[simp] theorem State.cutOff_result : (s.cutOff).result = s.result := rfl
@[simp] theorem State.cutOff_buf : (s.cutOff).buf = s.buf := rfl
@[simp] theorem State.cutOff_clockHz : (s.cutOff).clockHz = s.clockHz := rfl
@[simp] theorem State.cutOff_resetUs : (s.cutOff).resetUs = s.resetUs := rfl
@[simp] theorem State.cutOff_n : (s.cutOff).n = s.n := rfl
@[simp] theorem State.cutOff_debug : (s.cutOff).debug = s.debug := rfl
@[simp] theorem State.cutOff_bufCap : (s.cutOff).bufCap = s.bufCap := rfl
@[simp] theorem State.cutOff_answers : (s.cutOff).answers = s.answers := rfl
@[simp] theorem State.cutOff_caller : (s.cutOff).caller = s.caller := rfl
@[simp] theorem State.cutOff_submitted : (s.cutOff).submitted = s.submitted := rfl
@[simp] theorem State.cutOff_serial : (s.cutOff).serial = s.serial.take (Config.freeSent s.freeTick) := rfl
@[simp] theorem State.cutOff_serialIn : (s.cutOff).serialIn = Config.freeArrived s.freeTick := rfl
@[simp] theorem State.cutOff_dump : (s.cutOff).dump = s.dump := rfl
@[simp] theorem State.cutOff_scaled : (s.cutOff).scaled = s.scaled := rfl
@[simp] theorem State.cutOff_freeTick : (s.cutOff).freeTick = s.freeTick := rfl
@[simp] theorem State.cutOff_bufLen : (s.cutOff).bufLen = s.bufLen := rfl
@[simp] theorem State.cutOff_profileLegal : (s.cutOff).profileLegal = s.profileLegal := rfl
@[simp] theorem State.cutOff_fits : (s.cutOff).fits = s.fits := rfl

/-! ### received -/

@[simp] theorem State.received_raw (line : List Bool) : (s.received line).raw = s.raw := rfl
@[simp] theorem State.received_out (line : List Bool) : (s.received line).out = s.out := rfl
@[simp] theorem State.received_cnt (line : List Bool) : (s.received line).cnt = s.cnt := rfl
@[simp] theorem State.received_phase (line : List Bool) : (s.received line).phase = .validate := rfl
@[simp] theorem State.received_result (line : List Bool) : (s.received line).result = s.result := rfl
@[simp] theorem State.received_buf (line : List Bool) : (s.received line).buf = Memory.writeBytes s.buf 0 (packBits line) := rfl
@[simp] theorem State.received_clockHz (line : List Bool) : (s.received line).clockHz = s.clockHz := rfl
@[simp] theorem State.received_resetUs (line : List Bool) : (s.received line).resetUs = s.resetUs := rfl
@[simp] theorem State.received_n (line : List Bool) : (s.received line).n = s.n := rfl
@[simp] theorem State.received_debug (line : List Bool) : (s.received line).debug = s.debug := rfl
@[simp] theorem State.received_bufCap (line : List Bool) : (s.received line).bufCap = s.bufCap := rfl
@[simp] theorem State.received_answers (line : List Bool) : (s.received line).answers = s.answers := rfl
@[simp] theorem State.received_caller (line : List Bool) : (s.received line).caller = s.caller := rfl
@[simp] theorem State.received_submitted (line : List Bool) : (s.received line).submitted = s.submitted := rfl
@[simp] theorem State.received_serial (line : List Bool) : (s.received line).serial = s.serial := rfl
@[simp] theorem State.received_serialIn (line : List Bool) : (s.received line).serialIn = line := rfl
@[simp] theorem State.received_dump (line : List Bool) :
    (s.received line).dump =
      if s.debug then s.dump ++ [.incoming (packBits line)] else s.dump := rfl
@[simp] theorem State.received_scaled (line : List Bool) : (s.received line).scaled = s.scaled := rfl
@[simp] theorem State.received_freeTick (line : List Bool) : (s.received line).freeTick = s.freeTick := rfl
@[simp] theorem State.received_bufLen (line : List Bool) : (s.received line).bufLen = s.bufLen := rfl
@[simp] theorem State.received_profileLegal (line : List Bool) : (s.received line).profileLegal = s.profileLegal := rfl
@[simp] theorem State.received_fits (line : List Bool) : (s.received line).fits = s.fits := rfl

/-! ### shifted -/

@[simp] theorem State.shifted_raw : (s.shifted).raw = s.raw <<< 2 := rfl
@[simp] theorem State.shifted_out : (s.shifted).out = appendBit s.out s.b1 := rfl
@[simp] theorem State.shifted_cnt : (s.shifted).cnt = s.cnt + 1#6 := rfl
@[simp] theorem State.shifted_phase :
    (s.shifted).phase =
      if s.cnt.toNat + 1 = iterations then .finish else .shift := rfl
@[simp] theorem State.shifted_result : (s.shifted).result = s.result := rfl
@[simp] theorem State.shifted_buf : (s.shifted).buf = s.buf := rfl
@[simp] theorem State.shifted_clockHz : (s.shifted).clockHz = s.clockHz := rfl
@[simp] theorem State.shifted_resetUs : (s.shifted).resetUs = s.resetUs := rfl
@[simp] theorem State.shifted_n : (s.shifted).n = s.n := rfl
@[simp] theorem State.shifted_debug : (s.shifted).debug = s.debug := rfl
@[simp] theorem State.shifted_bufCap : (s.shifted).bufCap = s.bufCap := rfl
@[simp] theorem State.shifted_answers : (s.shifted).answers = s.answers := rfl
@[simp] theorem State.shifted_caller : (s.shifted).caller = s.caller := rfl
@[simp] theorem State.shifted_submitted : (s.shifted).submitted = s.submitted := rfl
@[simp] theorem State.shifted_serial : (s.shifted).serial = s.serial := rfl
@[simp] theorem State.shifted_serialIn : (s.shifted).serialIn = s.serialIn := rfl
@[simp] theorem State.shifted_dump :
    (s.shifted).dump =
      if s.debug && decide (s.cnt.toNat + 1 = iterations) then s.dump ++ [.postDecode (appendBit s.out s.b1)]
      else s.dump := rfl
@[simp] theorem State.shifted_scaled : (s.shifted).scaled = s.scaled := rfl
@[simp] theorem State.shifted_freeTick : (s.shifted).freeTick = s.freeTick := rfl
@[simp] theorem State.shifted_bufLen : (s.shifted).bufLen = s.bufLen := rfl
@[simp] theorem State.shifted_profileLegal : (s.shifted).profileLegal = s.profileLegal := rfl
@[simp] theorem State.shifted_fits : (s.shifted).fits = s.fits := rfl
@[simp] theorem State.shifted_transfer : (s.shifted).transfer = s.transfer := rfl

/-! ### delivered -/

@[simp] theorem State.delivered_raw : (s.delivered).raw = s.raw := rfl
@[simp] theorem State.delivered_out : (s.delivered).out = s.out := rfl
@[simp] theorem State.delivered_cnt : (s.delivered).cnt = s.cnt := rfl
@[simp] theorem State.delivered_phase : (s.delivered).phase = .idle := rfl
@[simp] theorem State.delivered_result : (s.delivered).result = .sample s.out := rfl
@[simp] theorem State.delivered_buf : (s.delivered).buf = [] := rfl
@[simp] theorem State.delivered_clockHz : (s.delivered).clockHz = s.clockHz := rfl
@[simp] theorem State.delivered_resetUs : (s.delivered).resetUs = s.resetUs := rfl
@[simp] theorem State.delivered_n : (s.delivered).n = s.n := rfl
@[simp] theorem State.delivered_debug : (s.delivered).debug = s.debug := rfl
@[simp] theorem State.delivered_bufCap : (s.delivered).bufCap = s.bufCap := rfl
@[simp] theorem State.delivered_answers : (s.delivered).answers = s.answers := rfl
@[simp] theorem State.delivered_caller : (s.delivered).caller = s.caller := rfl
@[simp] theorem State.delivered_submitted : (s.delivered).submitted = s.submitted := rfl
@[simp] theorem State.delivered_serial : (s.delivered).serial = s.serial := rfl
@[simp] theorem State.delivered_serialIn : (s.delivered).serialIn = s.serialIn := rfl
@[simp] theorem State.delivered_dump :
    (s.delivered).dump =
      if s.debug then s.dump ++ [.hostOrder s.out] else s.dump := rfl
@[simp] theorem State.delivered_scaled : (s.delivered).scaled = s.scaled := rfl
@[simp] theorem State.delivered_freeTick : (s.delivered).freeTick = s.freeTick + 1 := rfl
@[simp] theorem State.delivered_bufLen : (s.delivered).bufLen = s.bufLen := rfl
@[simp] theorem State.delivered_profileLegal : (s.delivered).profileLegal = s.profileLegal := rfl
@[simp] theorem State.delivered_fits : (s.delivered).fits = s.fits := rfl

end Sys2Proof.Machine
end

