-- ==== Sys2Proof/Laws/Configuration.lean ====
section
/-! SUPPORT. The Timing Calculator's function and the two checks on a configuration, as arithmetic. -/

namespace Sys2Proof.Machine

/-- R73's range. -/
theorem legalProfile_iff (c r : Nat) : legalProfile c r = true ↔ 1 ≤ c ∧ 1 ≤ r ∧ c * r ≤ 2 ^ 64 - 1 := by
  unfold legalProfile
  rw [Bool.and_eq_true, Bool.and_eq_true, decide_eq_true_eq, decide_eq_true_eq, decide_eq_true_eq, productMax, and_assoc]

/-- The syntactic check of IDLEB's operands is R73's range too. -/
theorem wellFormed_idleb (c r : Nat) : (Instr.idleb c r).wellFormed = legalProfile c r := rfl

theorem State.profileLegal_iff (s : State) :
    s.profileLegal = true ↔ 1 ≤ s.clockHz ∧ 1 ≤ s.resetUs ∧ s.clockHz * s.resetUs ≤ 2 ^ 64 - 1 :=
  legalProfile_iff s.clockHz s.resetUs

/-- BUF_CAP's check (R74). -/
theorem State.fits_iff (s : State) : s.fits = true ↔ ∀ cap, s.bufCap = some cap → s.n + 6 ≤ cap := by
  unfold State.fits
  cases h : s.bufCap with
  | none => simp
  | some cap =>
    simp only [decide_eq_true_eq, Option.some.injEq, forall_eq']
    exact Iff.rfl

/-- The closed form of R71 in integer division. -/
theorem idleBytes_eq (c r : Nat) : idleBytes c r = (c * r + 7999999) / 8000000 := by
  simp only [idleBytes]
  generalize c * r = p
  split <;> omega

/-- A legal profile has at least one idle byte (R72). -/
theorem idleBytes_pos {c r : Nat} (h : legalProfile c r = true) : 1 ≤ idleBytes c r := by
  obtain ⟨hc, hr, -⟩ := (legalProfile_iff c r).mp h
  have hp : 1 ≤ c * r := Nat.mul_pos hc hr
  rw [idleBytes_eq]
  generalize c * r = p at hp
  omega

end Sys2Proof.Machine
end

