-- ==== Sys2Proof/Laws/Memory.lean ====
section
/-! SUPPORT. The laws of BUF: a read after a write, the canonical form kept by every operation, what a run of written
bytes reads as, and byte order. -/

namespace Sys2Proof.Machine

@[simp] theorem Memory.read?_nil (a : Nat) : Memory.read? [] a = none := rfl

/-- A read after a write: the written byte at its address, every other address as before. -/
@[simp] theorem Memory.read?_write (m : Memory) (a : Nat) (b : Byte) (x : Nat) :
    Memory.read? (Memory.write m a b) x = if x = a then some b else Memory.read? m x := by
  induction m with
  | nil => simp [Memory.write, Memory.read?]
  | cons c m ih =>
    obtain ⟨a', b'⟩ := c
    simp only [Memory.write]
    split_ifs <;> simp only [Memory.read?, ih] <;> split_ifs <;> first | rfl | omega

/-- A write lists its own address and no other new one. -/
theorem Memory.mem_keys_write {m : Memory} {a : Nat} {b : Byte} {x : Nat}
    (h : x ∈ (Memory.write m a b).map Prod.fst) : x = a ∨ x ∈ m.map Prod.fst := by
  induction m with
  | nil => simpa [Memory.write] using h
  | cons c m ih =>
    obtain ⟨a', b'⟩ := c
    simp only [Memory.write] at h
    split_ifs at h <;> simp only [List.map_cons, List.mem_cons] at h ⊢
    · tauto
    · tauto
    · rcases h with h | h
      · exact .inr (.inl h)
      · rcases ih h with h | h
        · exact .inl h
        · exact .inr (.inr h)

/-- A write keeps the canonical form. -/
theorem Memory.wf_write {m : Memory} (h : Memory.wf m) (a : Nat) (b : Byte) : Memory.wf (Memory.write m a b) := by
  induction m with
  | nil => simp [Memory.write, Memory.wf]
  | cons c m ih =>
    obtain ⟨a', b'⟩ := c
    simp only [Memory.wf, List.map_cons, List.pairwise_cons] at h
    simp only [Memory.write]
    split_ifs with h1 h2
    · simp only [Memory.wf, List.map_cons, List.pairwise_cons, List.mem_cons]
      refine ⟨?_, h.1, h.2⟩
      rintro x (rfl | hx)
      · exact h1
      · exact lt_trans h1 (h.1 x hx)
    · subst h2
      simpa only [Memory.wf, List.map_cons, List.pairwise_cons] using h
    · simp only [Memory.wf, List.map_cons, List.pairwise_cons]
      refine ⟨fun x hx => ?_, ih h.2⟩
      rcases Memory.mem_keys_write hx with rfl | hx
      · omega
      · exact h.1 x hx

/-- A run of written bytes: byte `x − a` of the run inside it, every other address as before. -/
theorem Memory.read?_writeBytes (bs : List Byte) (m : Memory) (a x : Nat) :
    Memory.read? (Memory.writeBytes m a bs) x =
      if a ≤ x ∧ x < a + bs.length then bs[x - a]? else Memory.read? m x := by
  induction bs generalizing m a with
  | nil => simp [Memory.writeBytes]
  | cons b bs ih =>
    simp only [Memory.writeBytes, ih, Memory.read?_write, List.length_cons]
    by_cases h : x = a
    · subst h; simp
    · by_cases h' : a ≤ x ∧ x < a + (bs.length + 1)
      · rw [if_pos (by omega), if_pos h', show x - a = (x - (a + 1)) + 1 by omega, List.getElem?_cons_succ]
      · rw [if_neg (by omega), if_neg h, if_neg h']

/-- A run of writes keeps the canonical form. -/
theorem Memory.wf_writeBytes (bs : List Byte) {m : Memory} (h : Memory.wf m) (a : Nat) :
    Memory.wf (Memory.writeBytes m a bs) := by
  induction bs generalizing m a with
  | nil => exact h
  | cons b bs ih => exact ih (Memory.wf_write h a b) (a + 1)

/-- What a run of writes lists: its own addresses and those listed before. -/
theorem Memory.mem_keys_writeBytes (bs : List Byte) {m : Memory} {a x : Nat}
    (h : x ∈ (Memory.writeBytes m a bs).map Prod.fst) : (a ≤ x ∧ x < a + bs.length) ∨ x ∈ m.map Prod.fst := by
  induction bs generalizing m a with
  | nil => exact .inr h
  | cons b bs ih =>
    rcases ih h with h | h
    · exact .inl (by simp only [List.length_cons]; omega)
    · rcases Memory.mem_keys_write h with rfl | h
      · exact .inl (by simp)
      · exact .inr h

/-- Where BUF lists a byte, that is the byte. -/
theorem State.bufByte_of_listed {s : State} {a : Nat} {b : Byte} (h : Memory.read? s.buf a = some b) :
    s.bufByte a = b := by
  simp only [State.bufByte, h]

@[simp] theorem State.length_bufBytes (s : State) (a k : Nat) : (s.bufBytes a k).length = k := by
  simp [State.bufBytes]

theorem State.getElem?_bufBytes (s : State) (a k i : Nat) (h : i < k) :
    (s.bufBytes a k)[i]? = some (s.bufByte (a + i)) := by
  simp [State.bufBytes, List.getElem?_range h]

/-- A byte of BUF after a run was written from address 0 on. -/
theorem State.bufByte_of_written {s : State} {m : Memory} {bs : List Byte} {i : Nat} {b : Byte}
    (h : s.buf = Memory.writeBytes m 0 bs) (hb : bs[i]? = some b) : s.bufByte i = b := by
  refine State.bufByte_of_listed ?_
  have hi : i < bs.length := by
    obtain ⟨hi, -⟩ := List.getElem?_eq_some_iff.mp hb
    exact hi
  rw [h, Memory.read?_writeBytes, if_pos ⟨Nat.zero_le _, by omega⟩]
  simpa using hb

/-- Part of a run written from address 0 on reads back as that part of the run. -/
theorem State.bufBytes_of_written {s : State} {m : Memory} {bs : List Byte}
    (h : s.buf = Memory.writeBytes m 0 bs) (a k : Nat) (hk : a + k ≤ bs.length) :
    s.bufBytes a k = (bs.drop a).take k := by
  apply List.ext_getElem?
  intro i
  by_cases hi : i < k
  · rw [State.getElem?_bufBytes s a k i hi, List.getElem?_take_of_lt hi, List.getElem?_drop]
    have hlt : a + i < bs.length := by omega
    rw [List.getElem?_eq_getElem hlt]
    exact congrArg some (State.bufByte_of_written h (List.getElem?_eq_getElem hlt))
  · rw [List.getElem?_eq_none (by simp; omega), List.getElem?_eq_none (by simp; omega)]

@[simp] theorem length_frame (n : Nat) : (frame n).length = n + dataBytes := by simp [frame]

theorem frame_idle {n i : Nat} (h : i < n) : (frame n)[i]? = some idleByte := by
  rw [frame, List.getElem?_append_left (by simpa using h)]
  simp [h]

theorem frame_clock {n k : Nat} (h : k < dataBytes) : (frame n)[n + k]? = some clockByte := by
  rw [frame, List.getElem?_append_right (by simp)]
  simp [h]

/-! ### The line: bytes to raw bits and back (R34) -/

/-- A byte's raw bit number j, bit 7 first. -/
theorem byteBits_getElem? (b : Byte) {j : Nat} (h : j < 8) : (byteBits b)[j]? = some (b.getLsbD (7 - j)) := by
  interval_cases j <;> rfl

@[simp] theorem length_byteBits (b : Byte) : (byteBits b).length = 8 := rfl

/-- Eight bits shifted in are the eight bits of the byte, first received bit 7. -/
theorem byteBits_shiftIn (x7 x6 x5 x4 x3 x2 x1 x0 : Bool) :
    byteBits ([x7, x6, x5, x4, x3, x2, x1, x0].foldl shiftIn 0x00#8) = [x7, x6, x5, x4, x3, x2, x1, x0] := by
  revert x7 x6 x5 x4 x3 x2 x1 x0; decide

/-- A byte sent and received is the byte. -/
theorem shiftIn_byteBits (b : Byte) : (byteBits b).foldl shiftIn 0x00#8 = b := by
  revert b; decide

@[simp] theorem length_serialImage (r : List Byte) : (serialImage r).length = unitBits * r.length := by
  simp [serialImage, unitBits, Nat.mul_comm]

@[simp] theorem serialImage_cons (b : Byte) (r : List Byte) : serialImage (b :: r) = byteBits b ++ serialImage r := rfl

/-- Raw bit j of a run of bytes is bit 7 − (j mod 8) of byte floor(j / 8) (spec/30_encoding.md R53, R54). -/
theorem serialImage_getElem? (r : List Byte) {j : Nat} (h : j < 8 * r.length) :
    (serialImage r)[j]? = (r[j / 8]?).map fun b => b.getLsbD (7 - j % 8) := by
  induction r generalizing j with
  | nil => simp at h
  | cons b r ih =>
    rw [serialImage_cons]
    by_cases hj : j < 8
    · rw [List.getElem?_append_left (by simpa using hj), byteBits_getElem? b hj, Nat.div_eq_of_lt hj,
        Nat.mod_eq_of_lt hj]
      rfl
    · simp only [List.length_cons] at h
      rw [List.getElem?_append_right (by simpa using hj), length_byteBits, ih (by omega),
        show j / 8 = (j - 8) / 8 + 1 by omega, List.getElem?_cons_succ, show (j - 8) % 8 = j % 8 by omega]

/-- What is sent and received is what was sent. -/
@[simp] theorem packBits_serialImage (r : List Byte) : packBits (serialImage r) = r := by
  induction r with
  | nil => rfl
  | cons b r ih =>
    have hb := shiftIn_byteBits b
    simp only [byteBits] at hb
    simp only [serialImage_cons, byteBits, List.cons_append, List.nil_append, packBits, ih, hb]

/-- Whole bytes' worth of raw bits are the serial image of the bytes they make. -/
theorem serialImage_packBits {line : List Bool} {k : Nat} (h : line.length = unitBits * k) :
    serialImage (packBits line) = line := by
  induction k generalizing line with
  | zero => rw [List.length_eq_zero_iff.mp h]; rfl
  | succ k ih =>
    simp only [unitBits] at h ih
    match line, h with
    | x7 :: x6 :: x5 :: x4 :: x3 :: x2 :: x1 :: x0 :: rest, h =>
      simp only [List.length_cons] at h
      rw [packBits, serialImage_cons, byteBits_shiftIn, ih (by omega)]
      rfl

theorem length_packBits {line : List Bool} {k : Nat} (h : line.length = unitBits * k) :
    (packBits line).length = k := by
  have := length_serialImage (packBits line)
  rw [serialImage_packBits h, h] at this
  simp only [unitBits] at this
  omega

end Sys2Proof.Machine
end

