-- ==== Sys2Proof/Laws/Ops.lean ====
section
/-! SUPPORT. One lemma per shared operation that says once everything it can do when it answers a next state; later
proofs cite these and never unfold the operation. -/

namespace Sys2Proof.Machine

variable {s t : State}

/-- A sequenced operation answers a next state in one of two ways. -/
theorem thenAt_cases {o : StepResult} {p : Phase} {k : State → StepResult} (h : thenAt o p k = .next t) :
    (∃ u, o = .next u ∧ u.phase = p ∧ k u = .next t) ∨ (o = .next t ∧ t.phase ≠ p) := by
  unfold thenAt at h
  split at h
  · rename_i u
    split at h
    · exact .inl ⟨u, rfl, ‹_›, h⟩
    · cases h; exact .inr ⟨rfl, ‹_›⟩
  · cases h
  · cases h

@[simp] theorem thenAt_next_pos {u : State} {p : Phase} {k : State → StepResult} (h : u.phase = p) :
    thenAt (.next u) p k = k u := by simp [thenAt, h]

@[simp] theorem thenAt_next_neg {u : State} {p : Phase} {k : State → StepResult} (h : u.phase ≠ p) :
    thenAt (.next u) p k = .next u := by simp [thenAt, h]

/-- A property that both halves keep is kept by the sequence. -/
theorem thenAt_keeps {P : State → Prop} {o : StepResult} {p : Phase} {k : State → StepResult}
    (ho : ∀ u, o = .next u → P u) (hk : ∀ u t, P u → k u = .next t → P t) (h : thenAt o p k = .next t) : P t := by
  rcases thenAt_cases h with ⟨u, hu, -, ht⟩ | ⟨ht, -⟩
  · exact hk u t (ho u hu) ht
  · exact ho t ht

/-- What a raise leaves, in the terms of the statements (spec/60_exceptions.md R137). -/
theorem raise_raised (s : State) (o : Result) : Raised s o (s.raise o) := ⟨rfl, rfl, rfl⟩

theorem opEncode_cases (h : opEncode s = .next t) : s.phase = .build ∧ t = s.encoded := by
  unfold opEncode at h
  split at h
  · cases h; exact ⟨‹_›, rfl⟩
  · cases h

theorem opReceive_cases {line : List Bool} {rest : List Answer} (h : opReceive line rest s = .next t) :
    line.length = unitBits * s.bufLen ∧ t = { s.handOver with answers := rest }.received line := by
  unfold opReceive at h
  split at h
  · cases h; exact ⟨‹_›, rfl⟩
  · cases h

/-- Of an answer that is no failure, XCHG takes the raw bits: given as such, or the serial image of the bytes. -/
theorem opXchg_cases (h : opXchg s = .next t) :
    s.phase = .exchange ∧
      ((∃ op rest, s.answers = .fail op :: rest ∧
          t = { s.handOver with answers := rest }.cutOff.raise (.transportFault op)) ∨
       (∃ a line rest, s.answers = a :: rest ∧ a.line? = some line ∧ line.length = unitBits * s.bufLen ∧
          t = { s.handOver with answers := rest }.received line)) := by
  unfold opXchg at h
  split at h
  · refine ⟨‹_›, ?_⟩
    split at h
    · cases h
    · cases h; exact .inl ⟨_, _, ‹_›, rfl⟩
    · obtain ⟨hl, rfl⟩ := opReceive_cases h; exact .inr ⟨_, _, _, ‹_›, rfl, hl, rfl⟩
    · obtain ⟨hl, rfl⟩ := opReceive_cases h; exact .inr ⟨_, _, _, ‹_›, rfl, hl, rfl⟩
  · cases h

theorem opValid_cases (h : opValid s = .next t) :
    s.phase = .validate ∧ s.n ≠ 0 ∧
      ((sentinel (s.bufByte (s.n - 1)) = true ∧ t = s.raise .notReady) ∨
       (sentinel (s.bufByte (s.n - 1)) = false ∧ t = { s with phase := .load })) := by
  unfold opValid State.readyByte? at h
  by_cases hn : s.n = 0
  · simp [hn] at h; split at h <;> cases h
  · split at h
    · refine ⟨‹_›, hn, ?_⟩
      cases hs : sentinel (s.bufByte (s.n - 1))
      · simp [hs] at h; exact .inr ⟨rfl, h.symm⟩
      · simp [hs] at h; exact .inl ⟨rfl, h.symm⟩
    · cases h

theorem opLdraw_cases (h : opLdraw s = .next t) :
    s.phase = .load ∧
      t = { s with raw := BitVec.ofNat 64 s.window, out := 0#32, cnt := 0#6, phase := .shift } := by
  unfold opLdraw at h
  split at h
  · cases h; exact ⟨‹_›, rfl⟩
  · cases h

theorem opDstep_cases (h : opDstep s = .next t) :
    s.phase = .shift ∧ s.cnt.toNat < iterations ∧
      ((s.mismatch = true ∧ t = s.raise .integrityViolation) ∨ (s.mismatch = false ∧ t = s.shifted)) := by
  unfold opDstep at h
  split at h
  · rename_i hp
    refine ⟨hp.1, hp.2, ?_⟩
    cases hm : s.mismatch <;> rw [hm] at h <;> cases h
    · exact .inr ⟨rfl, rfl⟩
    · exact .inl ⟨rfl, rfl⟩
  · cases h

theorem opFinal_cases (h : opFinal s = .next t) :
    s.phase = .finish ∧ s.cnt.toNat = iterations ∧ t = s.delivered := by
  unfold opFinal at h
  split at h
  · rename_i hp; cases h; exact ⟨hp.1, hp.2, rfl⟩
  · cases h

theorem opRead_cases (h : opRead s = .next t) :
    s.phase = .idle ∧ s.profileLegal = true ∧ s.fits = true ∧ opReadSequence s.accept = .next t := by
  unfold opRead at h
  split at h
  · cases h
  · rename_i hp
    have hp : s.phase = .idle := not_not.mp hp
    cases hl : s.profileLegal <;> cases hf : s.fits <;> simp [hl, hf] at h
    exact ⟨hp, rfl, rfl, h⟩

theorem opSend_cases {b : Byte} {lo hi : Nat} (h : opSend b lo hi s = .next t) :
    s.phase = .exchange ∧ lo ≤ s.sendAddress ∧ s.sendAddress < hi ∧ s.bufByte s.sendAddress = b ∧
      t = { s with serial := s.serial ++ byteBits b } := by
  unfold opSend at h
  split at h
  · split at h
    · rename_i hp; cases h; exact ⟨‹_›, hp.1, hp.2.1, hp.2.2, rfl⟩
    · cases h
  · cases h

/-- A pair symbol runs as DSTEP. -/
theorem opPair_cases {x y : Bool} (h : opPair x y s = .next t) : s.b1 = x ∧ s.b2 = y ∧ opDstep s = .next t := by
  unfold opPair at h
  split at h
  · split at h
    · rename_i hp; exact ⟨hp.1, hp.2, h⟩
    · cases h
  · cases h

/-- The symbol RXNOTRDY runs as VALID. -/
theorem opNotReady_cases (h : opNotReady s = .next t) : opValid s = .next t := by
  unfold opNotReady at h
  split at h
  · split at h
    · cases h
    · split at h
      · exact h
      · cases h
  · cases h

/-! ### Each micro-operation where its precondition holds -/

theorem opEncode_next (h : s.phase = .build) : opEncode s = .next s.encoded := by rw [opEncode, if_pos h]

theorem opXchg_fail {op : OpName} {rest : List Answer} (h : s.phase = .exchange)
    (ha : s.answers = .fail op :: rest) :
    opXchg s = .next ({ s.handOver with answers := rest }.cutOff.raise (.transportFault op)) := by
  simp [opXchg, h, ha]

theorem opXchg_line {a : Answer} {line : List Bool} {rest : List Answer} (h : s.phase = .exchange)
    (ha : s.answers = a :: rest) (hl : a.line? = some line) (hn : line.length = unitBits * s.bufLen) :
    opXchg s = .next ({ s.handOver with answers := rest }.received line) := by
  cases a with
  | fail op => cases hl
  | bytes r => cases hl; rw [opXchg, if_pos h, ha]; exact if_pos hn
  | bits l => cases hl; rw [opXchg, if_pos h, ha]; exact if_pos hn

/-- An answer in bytes of the frame's length: BUF takes exactly those bytes. -/
theorem opXchg_bytes {r : List Byte} {rest : List Answer} (h : s.phase = .exchange)
    (ha : s.answers = .bytes r :: rest) (hr : r.length = s.bufLen) :
    opXchg s = .next ({ s.handOver with answers := rest }.received (serialImage r)) :=
  opXchg_line h ha rfl (by rw [length_serialImage, hr])

theorem opLdraw_next (h : s.phase = .load) :
    opLdraw s = .next { s with raw := BitVec.ofNat 64 s.window, out := 0#32, cnt := 0#6, phase := .shift } := by
  rw [opLdraw, if_pos h]

theorem opDstep_agree (hp : s.phase = .shift) (hc : s.cnt.toNat < iterations) (hm : s.b1 = s.b2) :
    opDstep s = .next s.shifted := by
  rw [opDstep, if_pos ⟨hp, hc⟩, if_neg (by simp [State.mismatch, hm])]

theorem opDstep_differ (hp : s.phase = .shift) (hc : s.cnt.toNat < iterations) (hm : s.b1 ≠ s.b2) :
    opDstep s = .next (s.raise .integrityViolation) := by
  rw [opDstep, if_pos ⟨hp, hc⟩, if_pos (by simpa [State.mismatch] using hm)]

theorem opFinal_next (hp : s.phase = .finish) (hc : s.cnt.toNat = iterations) : opFinal s = .next s.delivered := by
  rw [opFinal, if_pos ⟨hp, hc⟩]

theorem opSend_next {b : Byte} {lo hi : Nat} (hp : s.phase = .exchange)
    (h : lo ≤ s.sendAddress ∧ s.sendAddress < hi ∧ s.bufByte s.sendAddress = b) :
    opSend b lo hi s = .next { s with serial := s.serial ++ byteBits b } := by
  rw [opSend, if_pos hp, if_pos h]

/-- A symbol at its place runs as DSTEP. -/
theorem opPair_eq {x y : Bool} (hp : s.phase = .shift) (hc : s.cnt.toNat < iterations) (h : s.b1 = x ∧ s.b2 = y) :
    opPair x y s = opDstep s := by
  rw [opPair, if_pos ⟨hp, hc⟩, if_pos h]

/-- One step of a run of steps. -/
theorem run_succ {k : Nat} (h : step s = .next t) :
    Host.Core.run Sys2Proof.core (k + 1) s = Host.Core.run Sys2Proof.core k t := by
  have h' : Sys2Proof.core.step s = .next t := h
  simp only [Host.Core.run, h']

/-! ### What a property kept by each micro-operation is kept by -/

/-- What DSTEP keeps, up to 32 of them keep. -/
theorem opDsteps_keeps {P : State → Prop} (hP : ∀ u t, P u → opDstep u = .next t → P t) (k : Nat) {s t : State}
    (hs : P s) (h : opDsteps k s = .next t) : P t := by
  induction k generalizing s t with
  | zero => cases h; exact hs
  | succ k ih => exact thenAt_keeps (fun u hu => hP s u hs hu) (fun u t hu ht => ih hu ht) h

/-- What each micro-operation keeps, DECODE keeps. -/
theorem opDecode_keeps {P : State → Prop} (hl : ∀ u t, P u → opLdraw u = .next t → P t)
    (hd : ∀ u t, P u → opDstep u = .next t → P t) (hf : ∀ u t, P u → opFinal u = .next t → P t) {s t : State}
    (hs : P s) (h : opDecode s = .next t) : P t :=
  thenAt_keeps
    (fun _ hu => thenAt_keeps (fun v hv => hl s v hs hv) (fun _ _ hv ht => opDsteps_keeps hd iterations hv ht) hu)
    (fun u t hu ht => hf u t hu ht) h

/-- What each micro-operation of an accepted read keeps, the read keeps. -/
theorem opReadSequence_keeps {P : State → Prop} (he : ∀ u t, P u → opEncode u = .next t → P t)
    (hw : ∀ u, P u → u.phase = .exchange → u.answers = [] → P u.handOver)
    (hx : ∀ u t, P u → opXchg u = .next t → P t)
    (hv : ∀ u t, P u → opValid u = .next t → P t) (hl : ∀ u t, P u → opLdraw u = .next t → P t)
    (hd : ∀ u t, P u → opDstep u = .next t → P t) (hf : ∀ u t, P u → opFinal u = .next t → P t) {s t : State}
    (hs : P s) (h : opReadSequence s = .next t) : P t := by
  refine thenAt_keeps (fun u hu => ?_) (fun u t hu ht => opDecode_keeps hl hd hf hu ht) h
  refine thenAt_keeps (fun v hv' => ?_) (fun v t hv' ht => hv v t hv' ht) hu
  rcases thenAt_cases hv' with ⟨w, hw', hp, ht⟩ | ⟨ht, -⟩
  · have hPw := he s w hs hw'
    unfold opXchgOrWait at ht
    split at ht
    · cases ht; exact hw w hPw hp ‹_›
    · exact hx w v hPw ht
  · exact he s v hs ht

/-- Everything one instruction can do: what the micro-operations keep, and what the other effects establish, holds of
the next state. READ starts from the accepted state, the symbols extend the line, IDLEB sets the configuration. -/
theorem exec_keeps {P : State → Prop} {i : Instr} {s t : State}
    (hid : ∀ c r, s.phase = .idle → legalProfile c r = true →
      P { s with clockHz := c, resetUs := r, n := idleBytes c r })
    (he : ∀ u t, P u → opEncode u = .next t → P t) (hx : ∀ u t, P u → opXchg u = .next t → P t)
    (hv : ∀ u t, P u → opValid u = .next t → P t) (hl : ∀ u t, P u → opLdraw u = .next t → P t)
    (hd : ∀ u t, P u → opDstep u = .next t → P t) (hf : ∀ u t, P u → opFinal u = .next t → P t)
    (hh : ∀ u, P u → u.phase = .exchange → P u.handOver)
    (ha : i = .read → s.phase = .idle → s.profileLegal = true → s.fits = true → P s.accept)
    (hsc : ∀ x, P { s with scaled := x })
    (htx : ∀ b, s.phase = .exchange → s.sendAddress < s.bufLen → s.bufByte s.sendAddress = b →
      P { s with serial := s.serial ++ byteBits b })
    (hs : P s) (h : exec i s = .next t) : P t := by
  cases i with
  | idleb c r =>
    simp only [exec, execIdleb] at h
    split at h
    · cases h
    · rename_i hp
      split at h
      · cases h; exact hid c r (not_not.mp hp) ‹_›
      · cases h
  | encode => exact he _ _ hs h
  | xchg => exact hx _ _ hs h
  | valid => exact hv _ _ hs h
  | ldraw => exact hl _ _ hs h
  | dstep => exact hd _ _ hs h
  | final => exact hf _ _ hs h
  | decode => exact opDecode_keeps hl hd hf hs h
  | read =>
    obtain ⟨h1, h2, h3, h⟩ := opRead_cases h
    exact opReadSequence_keeps he (fun u hu hp _ => hh u hu hp) hx hv hl hd hf (ha rfl h1 h2 h3) h
  | scale v => cases h; exact hsc _
  | txidle => obtain ⟨h1, -, h2, h3, rfl⟩ := opSend_cases h; exact htx _ h1 (Nat.lt_add_right _ h2) h3
  | txclk => obtain ⟨h1, -, h2, h3, rfl⟩ := opSend_cases h; exact htx _ h1 h2 h3
  | rxnotrdy => exact hv _ _ hs (opNotReady_cases h)
  | pair0 => exact hd _ _ hs (opPair_cases h).2.2
  | pair1 => exact hd _ _ hs (opPair_cases h).2.2
  | pairx01 => exact hd _ _ hs (opPair_cases h).2.2
  | pairx10 => exact hd _ _ hs (opPair_cases h).2.2

end Sys2Proof.Machine
end

