-- ==== Sys2Proof/Laws/PerInstr.lean ====
section
/-! SUPPORT. Statements made per instruction. EncodeHead: the number an instruction is encoded as fits the field of its
format, four bits, eight or two (spec/30_encoding.md R52, R55, R57, R62), and only IDLEB and SCALE have operand bytes. -/

namespace Sys2Proof.Laws.EncodeHead

/-- The width of a format's field in bits. -/
def fieldWidth : Format → Nat
  | .op4 => 4
  | .txbyte => 8
  | .rxready => 8
  | .pair => 2

/-- The operand bytes of an instruction (log 10). -/
def operandBytes : Instr → Nat
  | .idleb _ _ => 16
  | .scale _ => 4
  | _ => 0

def Statement (i : Instr) : Prop :=
  ∃ b rest, (Sys2Proof.encode i).bytes = b :: rest ∧ b.toNat < 2 ^ fieldWidth (Sys2Proof.encode i).format ∧
    rest.length = operandBytes i

theorem length_beBytes (n v : Nat) : (beBytes n v).length = n := by
  induction n generalizing v with
  | zero => rfl
  | succ n ih => simp [beBytes, ih]

theorem idleb (clockHz resetUs : Nat) : Statement (.idleb clockHz resetUs) :=
  ⟨_, _, rfl, by simp [Sys2Proof.encode, fieldWidth], by simp [length_beBytes, operandBytes]⟩
theorem encode : Statement .encode := ⟨_, _, rfl, by decide, rfl⟩
theorem xchg : Statement .xchg := ⟨_, _, rfl, by decide, rfl⟩
theorem valid : Statement .valid := ⟨_, _, rfl, by decide, rfl⟩
theorem ldraw : Statement .ldraw := ⟨_, _, rfl, by decide, rfl⟩
theorem dstep : Statement .dstep := ⟨_, _, rfl, by decide, rfl⟩
theorem final : Statement .final := ⟨_, _, rfl, by decide, rfl⟩
theorem decode : Statement .decode := ⟨_, _, rfl, by decide, rfl⟩
theorem read : Statement .read := ⟨_, _, rfl, by decide, rfl⟩
theorem scale (s : SampleWord) : Statement (.scale s) :=
  ⟨_, _, rfl, by simp [Sys2Proof.encode, fieldWidth], by simp [length_beBytes, operandBytes]⟩
theorem txidle : Statement .txidle := ⟨_, _, rfl, by decide, rfl⟩
theorem txclk : Statement .txclk := ⟨_, _, rfl, by decide, rfl⟩
theorem rxnotrdy : Statement .rxnotrdy := ⟨_, _, rfl, by decide, rfl⟩
theorem pair0 : Statement .pair0 := ⟨_, _, rfl, by decide, rfl⟩
theorem pair1 : Statement .pair1 := ⟨_, _, rfl, by decide, rfl⟩
theorem pairx01 : Statement .pairx01 := ⟨_, _, rfl, by decide, rfl⟩
theorem pairx10 : Statement .pairx10 := ⟨_, _, rfl, by decide, rfl⟩

end Sys2Proof.Laws.EncodeHead
end

