-- ==== Sys2Proof/Tests/Slice0.lean ====
section
/-! SUPPORT. The model's own tests: the refusals of WellFormed, one word per constructor written out from the tables of
spec/30_encoding.md, single steps with the results of spec/95_test_vectors.md, and, for every statement with
hypotheses, a witness that they can be met together. -/

namespace Sys2Proof.Machine.Tests

/-! ### Helpers -/

/-- One value read off a next state. -/
def after {α : Type} (o : StepResult) (f : State → α) : Option α :=
  match o with
  | .next s => some (f s)
  | .fault _ => none
  | .refused _ => none

/-- Whether an outcome is a next state. -/
def completes (o : StepResult) : Bool := (after o fun _ => ()).isSome

/-- The refusal an outcome is, if it is one. -/
def refusal? (o : StepResult) : Option Refusal :=
  match o with
  | .next _ => none
  | .fault _ => none
  | .refused r => some r

/-- A state under the reference profile (N = 2), in phase `p`, BUF holding `bytes`. -/
def ref (p : Phase) (bytes : List Byte) : State :=
  { State.reset with clockHz := 160000, resetUs := 100, n := 2, phase := p, buf := Memory.writeBytes [] 0 bytes }

/-- An idle state under the reference profile whose transport will answer `a`. -/
def asked (a : Answer) : State := { ref .idle [] with answers := [a] }

/-- A state in SHIFT. -/
def shifting (raw : RawWord) (out : SampleWord) (cnt : CountWord) : State :=
  { ref .shift [] with raw := raw, out := out, cnt := cnt }

/-- The transmit frame for N = 2 (T2). -/
def frame2 : List Byte := [0x00#8, 0x00#8, 0xAA#8, 0xAA#8, 0xAA#8, 0xAA#8, 0xAA#8, 0xAA#8]

/-- The received frame of program P1. -/
def good : List Byte := [0x00#8, 0x00#8, 0xC0#8, 0x00#8, 0x00#8, 0x00#8, 0x00#8, 0x03#8]

/-- A phase other than the one it is asked about. -/
def busyState : State := ref .exchange frame2

/-! ### WellFormed: each check refuses an ill-formed term -/

theorem test_wellFormed_clock_zero : (Instr.idleb 0 100).wellFormed = false := by decide
theorem test_wellFormed_reset_zero : (Instr.idleb 160000 0).wellFormed = false := by decide
theorem test_wellFormed_product_too_large : (Instr.idleb 4294967296 4294967296).wellFormed = false := by decide
theorem test_wellFormed_product_at_limit : (Instr.idleb 1 18446744073709551615).wellFormed = true := by decide

/-! ### Decoding: one word per constructor, from the tables of R52, R55, R57, R62 -/

theorem test_decode_op4 :
    decode ⟨.op4, [0b00000001#8]⟩ = .instr .encode [] ∧ decode ⟨.op4, [0b00000010#8]⟩ = .instr .xchg [] ∧
    decode ⟨.op4, [0b00000011#8]⟩ = .instr .valid [] ∧ decode ⟨.op4, [0b00000100#8]⟩ = .instr .ldraw [] ∧
    decode ⟨.op4, [0b00000101#8]⟩ = .instr .dstep [] ∧ decode ⟨.op4, [0b00000110#8]⟩ = .instr .final [] ∧
    decode ⟨.op4, [0b00000111#8]⟩ = .instr .decode [] ∧ decode ⟨.op4, [0b00001000#8]⟩ = .instr .read [] := by decide

theorem test_decode_idleb :
    decode ⟨.op4, [0x00#8, 0x00#8, 0x00#8, 0x00#8, 0x00#8, 0x00#8, 0x02#8, 0x71#8, 0x00#8,
      0x00#8, 0x00#8, 0x00#8, 0x00#8, 0x00#8, 0x00#8, 0x00#8, 0x64#8]⟩ = .instr (.idleb 160000 100) [] := by decide

theorem test_decode_scale :
    decode ⟨.op4, [0b00001001#8, 0x00#8, 0x12#8, 0x34#8, 0x56#8]⟩ = .instr (.scale 0x00123456#32) [] := by decide

theorem test_decode_txbyte :
    decode ⟨.txbyte, [0b00000000#8]⟩ = .instr .txidle [] ∧ decode ⟨.txbyte, [0b10101010#8]⟩ = .instr .txclk [] := by
  decide

theorem test_decode_rxready : decode ⟨.rxready, [0b11111111#8]⟩ = .instr .rxnotrdy [] := by decide

theorem test_decode_pair :
    decode ⟨.pair, [0b00#8]⟩ = .instr .pair0 [] ∧ decode ⟨.pair, [0b11#8]⟩ = .instr .pair1 [] ∧
    decode ⟨.pair, [0b01#8]⟩ = .instr .pairx01 [] ∧ decode ⟨.pair, [0b10#8]⟩ = .instr .pairx10 [] := by decide

theorem test_decode_rejects :
    decode ⟨.op4, []⟩ = .reject .empty ∧ decode ⟨.op4, [0x0A#8]⟩ = .reject .unassignedOp ∧
    decode ⟨.op4, [0x10#8]⟩ = .reject .notInField ∧ decode ⟨.pair, [0x04#8]⟩ = .reject .notInField ∧
    decode ⟨.txbyte, [0x55#8]⟩ = .reject .notTransmitted ∧ decode ⟨.rxready, [0xFE#8]⟩ = .reject .readyByte ∧
    decode ⟨.op4, [0x09#8, 0x00#8]⟩ = .reject .operandsMissing ∧
    decode ⟨.op4, [0x08#8, 0x00#8]⟩ = .reject .trailingBytes := by decide

/-- The table's words, given by width and value (log 11). -/
theorem test_decodeTableWord :
    decodeTableWord 4 0 = some (.idleb 0 0) ∧ decodeTableWord 4 8 = some .read ∧ decodeTableWord 8 5 = some .dstep ∧
    decodeTableWord 4 9 = some (.scale 0#32) ∧ decodeTableWord 8 0xAA = some .txclk ∧
    decodeTableWord 8 0xFF = some .rxnotrdy ∧ decodeTableWord 2 3 = some .pair1 ∧
    decodeTableWord 8 0x0A = none := by decide

/-- From reset, with the word placed, the very next step runs each operation (log 8). IDLEB's word has zero operands,
which R74 refuses. -/
theorem test_withFetchWord :
    ([1, 2, 3, 4, 5, 6, 7, 8, 9, 0xAA, 0xFF].all fun w => completes (step (State.reset.withFetchWord 8 w))) = true ∧
    ([0, 1, 2, 3].all fun w => completes (step (State.reset.withFetchWord 2 w))) = true ∧
    refusal? (step (State.reset.withFetchWord 8 0)) = some .illegalProfile := by
  set_option maxRecDepth 8000 in decide

theorem test_reset_memory_wf : Memory.wf State.reset.buf := by decide

/-! ### Single steps, results from spec/95_test_vectors.md -/

/-- T1 row 3. -/
theorem test_idleb_rounds_up : after (exec (.idleb 160000 101) (ref .idle [])) State.n = some 3 := by decide
/-- T1 row 17. -/
theorem test_idleb_large :
    after (exec (.idleb 4294967296 2147483648) (ref .idle [])) State.n = some 1152921504607 := by decide

/-- T2, N = 2, over an old receive frame. -/
theorem test_encode_frame :
    after (exec .encode (ref .build [0xFF#8, 0xFF#8, 0xC0#8, 0x00#8, 0x00#8, 0x00#8, 0x00#8, 0x03#8]))
      (fun t => t.bufBytes 0 8) = some frame2 := by decide
/-- T2, N = 1. -/
theorem test_encode_frame_one :
    after (exec .encode { ref .build [] with n := 1 }) (fun t => (t.bufBytes 0 7, t.phase)) =
      some ([0x00#8, 0xAA#8, 0xAA#8, 0xAA#8, 0xAA#8, 0xAA#8, 0xAA#8], .exchange) := by decide

/-- P1. -/
theorem test_xchg_receives :
    after (exec .xchg { ref .exchange frame2 with answers := [.bytes good] })
      (fun t => (t.bufBytes 0 8, t.phase, t.answers)) = some (good, .validate, []) := by decide
/-- R34: the first bit received becomes bit 7, the first eight make the first byte. -/
theorem test_packBits_first_received_is_bit_7 :
    packBits ([true, true] ++ List.replicate 13 false ++ [true]) = [0xC0#8, 0x01#8] := by decide
/-- T6 row 10. -/
theorem test_xchg_fails :
    after (exec .xchg { ref .exchange frame2 with answers := [.fail "transfer"] }) (fun t => (t.result, t.phase)) =
      some (.transportFault "transfer", .idle) := by decide

/-- T6 row 3: only BUF[1] matters. -/
theorem test_valid_notReady :
    after (exec .valid (ref .validate [0x00#8, 0xFF#8, 0x03#8, 0x0C#8, 0x0F#8, 0x30#8, 0x33#8, 0x3C#8]))
      (fun t => (t.result, t.phase)) = some (.notReady, .idle) := by decide
/-- T6 rows 4 and 5: BUF[0] is ignored, 0xFE is not the sentinel. -/
theorem test_valid_ready :
    after (exec .valid (ref .validate [0xFF#8, 0xFE#8, 0x03#8, 0x0C#8, 0x0F#8, 0x30#8, 0x33#8, 0x3C#8])) State.phase =
      some .load := by decide

/-- R100's example. -/
theorem test_ldraw :
    after (exec .ldraw { ref .load good with out := 7#32, cnt := 9#6 }) (fun t => (t.raw, t.out, t.cnt, t.phase)) =
      some (0x0000C00000000003#64, 0#32, 0#6, .shift) := by decide

/-- R101's example: P1, iteration 8. -/
theorem test_dstep :
    after (exec .dstep (shifting 0xC000000000030000#64 0#32 8#6)) (fun t => (t.raw, t.out, t.cnt, t.phase)) =
      some (0x00000000000C0000#64, 1#32, 9#6, .shift) := by decide
/-- P3, iteration 8. -/
theorem test_dstep_mismatch :
    after (exec .dstep (shifting 0xAAAAAAAAAAAA0000#64 0#32 8#6)) (fun t => (t.result, t.phase)) =
      some (.integrityViolation, .idle) := by decide

/-- R102's example. -/
theorem test_final :
    after (exec .final { ref .finish good with out := 0x00800001#32, cnt := 32#6 }) (fun t => (t.result, t.phase)) =
      some (.sample 0x00800001#32, .idle) := by decide

/-- T4 row 6. -/
theorem test_decode_legal :
    after (exec .decode (ref .load [0x00#8, 0x00#8, 0x03#8, 0x0C#8, 0x0F#8, 0x30#8, 0x33#8, 0x3C#8])) State.result =
      some (.sample 0x00123456#32) := by
  set_option maxRecDepth 8000 in decide
/-- T5 row 10. -/
theorem test_decode_illegal :
    after (exec .decode (ref .load [0x00#8, 0x00#8, 0x03#8, 0x0C#8, 0x0F#8, 0x30#8, 0x33#8, 0x3D#8])) State.result =
      some .integrityViolation := by
  set_option maxRecDepth 8000 in decide

/-- T6 row 1. -/
theorem test_read_sample :
    after (exec .read (asked (.bytes good))) (fun t => (t.result, t.phase)) = some (.sample 0x00800001#32, .idle) := by
  set_option maxRecDepth 8000 in decide
/-- T6 row 7: NotReady has priority over the bad window. -/
theorem test_read_priority :
    after (exec .read (asked (.bytes [0x00#8, 0xFF#8, 0xAA#8, 0xAA#8, 0xAA#8, 0xAA#8, 0xAA#8, 0xAA#8]))) State.result =
      some .notReady := by
  set_option maxRecDepth 8000 in decide

/-- T7, the largest value HXPD can produce. -/
theorem test_scale_largest :
    after (exec (.scale 0x00FFFFFF#32) State.reset) (fun t => t.scaled.map fun x => (x.exact.num, x.exact.den)) =
      some (some (65793, 16843009)) := by decide
/-- T7, reduced fraction. -/
theorem test_scale_reduced :
    after (exec (.scale 0x00123456#32) State.reset) (fun t => t.scaled.map fun x => (x.exact.num, x.exact.den)) =
      some (some (397682, 1431655765)) := by decide

/-- T2's serial image: its first byte. -/
theorem test_txidle : after (exec .txidle (ref .exchange frame2)) State.serial = some (List.replicate 8 false) := by
  decide
/-- T2's serial image: its first clock byte, after 16 raw bits of 0. -/
theorem test_txclk :
    after (exec .txclk { ref .exchange frame2 with serial := List.replicate 16 false })
      (fun t => t.serial.drop 16) = some [true, false, true, false, true, false, true, false] := by decide
/-- P2. -/
theorem test_rxnotrdy :
    after (exec .rxnotrdy (ref .validate (List.replicate 8 0xFF#8))) (fun t => (t.result, t.phase)) =
      some (.notReady, .idle) := by decide
/-- P1, iteration 9. -/
theorem test_pair0 :
    after (exec .pair0 (shifting 0x00000000000C0000#64 1#32 9#6)) (fun t => (t.raw, t.out, t.cnt)) =
      some (0x0000000000300000#64, 2#32, 10#6) := by decide
/-- P1, iteration 31. -/
theorem test_pair1 :
    after (exec .pair1 (shifting 0xC000000000000000#64 0x00400000#32 31#6)) (fun t => (t.raw, t.out, t.cnt, t.phase)) =
      some (0#64, 0x00800001#32, 32#6, .finish) := by decide
/-- T5 row 7. -/
theorem test_pairx01 :
    after (exec .pairx01 (shifting 0x4000000000000000#64 0x00400000#32 31#6)) State.result =
      some .integrityViolation := by decide
/-- T5 row 8. -/
theorem test_pairx10 :
    after (exec .pairx10 (shifting 0x8000000000000000#64 0x007FFFFF#32 31#6)) State.result =
      some .integrityViolation := by decide

/-! ### Witnesses: the hypotheses of each statement can be met together -/

theorem witness_ResetDuringReadAbandonsIt :
    ∃ (s : State) (rest : List CallerEvent), s.phase = .exchange ∧ s.caller = .reset :: rest :=
  ⟨{ busyState with caller := [.reset] }, [], by decide⟩

/-- A state in the middle of a read, about to exchange, that meets the invariant. -/
def midRead : State := { busyState with answers := [.bytes good] }

theorem midRead_inv : Inv midRead where
  bufWf := by decide
  bufInRange := by decide
  bufIdle := by decide
  bufFull := by decide
  derivedN := by decide
  busyLegal := by decide
  exchangeFrame := by decide
  serialPrefix := fun _ => ⟨0, by decide⟩
  receivedBits := by decide
  phaseUsed := by decide
  shiftCount := by decide
  finishCount := by decide
  padding := by decide
  outBits := by decide
  sampleBits := fun v h => by cases h

theorem witness_EveryStepKeepsInv : ∃ s t : State, Inv s ∧ step s = .next t :=
  ⟨midRead, _, midRead_inv, rfl⟩

theorem witness_NoOtherPhaseTransition :
    (∃ s t : State, s.caller = [] ∧ s.phase ≠ .idle ∧ step s = .next t) ∧
    (∃ s t : State, exec .read s = .next t) :=
  ⟨⟨midRead, _, by decide, by decide, rfl⟩, ⟨asked (.fail "open"), _, rfl⟩⟩

theorem witness_ResultWrittenOnlyAtEndOfRead :
    ∃ (i : Instr) (s t : State), exec i s = .next t ∧ t.result ≠ s.result :=
  ⟨.final, { ref .finish good with cnt := 32#6 }, _, rfl, by decide⟩

theorem witness_ConfigurationFixedDuringRead :
    (∃ s t : State, exec .dstep s = .next t ∧ s.phase ≠ .idle ∧ s.n = idleBytes s.clockHz s.resetUs) ∧
    (∃ s t : State, exec (.idleb 160000 101) s = .next t ∧ s.n = idleBytes s.clockHz s.resetUs) ∧
    (∃ s t : State, exec (.scale 0#32) s = .next t ∧ s.phase = .idle ∧ ∀ c r, Instr.scale 0#32 ≠ .idleb c r) :=
  ⟨⟨shifting 0#64 0#32 0#6, _, rfl, by decide, by decide⟩, ⟨ref .idle [], _, rfl, by decide⟩,
    ⟨State.reset, _, rfl, by decide, fun _ _ h => by cases h⟩⟩

theorem witness_DecodeOfEncode :
    (Instr.idleb 1 18446744073709551615).wellFormed = true ∧ (Instr.idleb 18446744073709551615 1).wellFormed = true ∧
    (Instr.scale 0xFFFFFFFF#32).wellFormed = true ∧ Instr.txclk.wellFormed = true := by decide

theorem witness_EncodeOfDecode :
    ∃ (c : Code) (i : Instr) (rest : List Byte), decode c = .instr i rest :=
  ⟨⟨.op4, [0x09#8, 0xFF#8, 0x00#8, 0x00#8, 0x01#8]⟩, .scale 0xFF000001#32, [], by decide⟩

theorem witness_UnassignedNumbersRefused :
    (∃ s : State, ∃ b : Byte, b.toNat = 10 ∧ s.caller = [.issue ⟨.op4, [b]⟩]) ∧
    (∃ s : State, ∃ b : Byte, b.toNat = 15 ∧ s.caller = [.issue ⟨.op4, [b]⟩]) ∧
    (∃ s : State, ∃ b : Byte, b ≠ 0x00#8 ∧ b ≠ 0xAA#8 ∧ s.caller = [.issue ⟨.txbyte, [b]⟩]) :=
  ⟨⟨{ State.reset with caller := [.issue ⟨.op4, [0x0A#8]⟩] }, 0x0A#8, by decide⟩,
    ⟨{ State.reset with caller := [.issue ⟨.op4, [0x0F#8]⟩] }, 0x0F#8, by decide⟩,
    ⟨{ State.reset with caller := [.issue ⟨.txbyte, [0xAB#8]⟩] }, 0xAB#8, by decide⟩⟩

theorem witness_StepRunsIssuedInstruction :
    ∃ (s : State) (c : Code) (i : Instr), s.caller = [.issue c] ∧ decode c = .instr i [] ∧ completes (step s) = true :=
  ⟨{ asked (.fail "transfer") with caller := [.issue ⟨.op4, [0x08#8]⟩] }, ⟨.op4, [0x08#8]⟩, .read, by decide⟩

theorem witness_StepRunsOperationOfPhase (p : Phase) : ∃ s : State, s.caller = [] ∧ s.phase = p :=
  ⟨ref p [], rfl, rfl⟩

theorem witness_CallerSetsDebugBetweenReads :
    (∃ s : State, s.caller = [.setDebug true] ∧ s.phase = .idle) ∧
    (∃ s : State, s.caller = [.setDebug true] ∧ s.phase ≠ .idle) :=
  ⟨⟨{ State.reset with caller := [.setDebug true] }, by decide⟩,
    ⟨{ busyState with caller := [.setDebug true] }, by decide⟩⟩

theorem witness_MemReadMemWriteBigEndian :
    ∃ s : State, 2 + 6 ≤ s.bufLen ∧ 7 + 1 ≤ s.bufLen ∧ 8 + 0 ≤ s.bufLen ∧ s.memRead 2 6 = some 0xC00000000003 :=
  ⟨ref .load good, by decide⟩

/-- Both boundary operands of R73's range (for IdlebComputesCeiling and IdlebBoundIsTight). -/
theorem witness_IdlebComputesCeiling :
    ∃ s : State, s.phase = .idle ∧ 1 ≤ 1 ∧ 1 ≤ 18446744073709551615 ∧ 1 * 18446744073709551615 ≤ 2 ^ 64 - 1 ∧
      1 * 1 ≤ 2 ^ 64 - 1 :=
  ⟨State.reset, by decide⟩

theorem witness_IdlebBoundIsTight :
    ∃ s : State, s.phase = .idle ∧ 0 < 18446744073709551615 ∧ 0 < 1 ∧ 18446744073709551615 * 1 ≤ 2 ^ 64 - 1 :=
  ⟨State.reset, by decide⟩

theorem witness_IllegalConfigurationRefused :
    (∃ s : State, s.phase = .idle ∧ 2 ^ 64 - 1 < 4294967296 * 4294967296) ∧
    (∃ s : State, s.phase = .idle ∧ (s.clockHz = 0 ∨ s.resetUs = 0)) ∧
    (∃ s : State, s.phase = .idle ∧ 2 ^ 64 - 1 < s.clockHz * s.resetUs) ∧
    (∃ s : State, s.phase = .idle ∧ s.profileLegal = true ∧ s.bufCap = some 7 ∧ 7 < s.n + 6) :=
  ⟨⟨State.reset, by decide⟩, ⟨State.reset, by decide⟩,
    ⟨{ State.reset with clockHz := 18446744073709551616, resetUs := 1 }, by decide⟩,
    ⟨{ ref .idle [] with bufCap := some 7 }, by decide⟩⟩

theorem witness_BusyRefusesReadAndIdleb : ∃ s : State, s.phase ≠ .idle := ⟨busyState, by decide⟩

theorem witness_OutsidePreconditionRefused :
    (∃ s : State, s.phase ≠ .build ∧ s.phase ≠ .validate ∧ s.phase ≠ .load ∧ s.phase ≠ .shift ∧ s.phase ≠ .finish) ∧
    (∃ s : State, s.phase ≠ .exchange) ∧ (∃ s : State, s.phase = .shift ∧ 32 ≤ s.cnt.toNat) ∧
    (∃ s : State, s.phase = .finish ∧ s.cnt.toNat ≠ 32) :=
  ⟨⟨busyState, by decide⟩, ⟨State.reset, by decide⟩, ⟨shifting 0#64 0#32 32#6, by decide⟩,
    ⟨ref .finish good, by decide⟩⟩

theorem witness_EncodeBuildsFrame : ∃ s : State, s.phase = .build ∧ s.debug = true ∧ s.n = 2 :=
  ⟨{ ref .build [] with debug := true }, by decide⟩

theorem witness_EncodeDependsOnNAlone :
    ∃ s₁ s₂ : State, s₁.phase = .build ∧ s₂.phase = .build ∧ s₁.n = s₂.n ∧ s₁ ≠ s₂ :=
  ⟨ref .build [], { ref .build good with raw := 1#64 }, by decide⟩

theorem witness_XchgReceivesBytes :
    ∃ (s : State) (r : List Byte) (rest : List Answer),
      s.phase = .exchange ∧ s.answers = .bytes r :: rest ∧ r.length = s.n + 6 :=
  ⟨midRead, good, [], by decide⟩

/-- Both forms of an answer, at its length. -/
theorem witness_XchgStoresReceivedBits :
    (∃ (s : State) (r : List Byte) (l : List Bool), s.phase = .exchange ∧ s.answers = [.bytes r] ∧
      (Answer.bytes r).line? = some l ∧ (Answer.bytes r).fitsFrame s.n) ∧
    (∃ (s : State) (l : List Bool), s.phase = .exchange ∧ s.answers = [.bits l] ∧
      (Answer.bits l).line? = some l ∧ (Answer.bits l).fitsFrame s.n) :=
  ⟨⟨midRead, good, _, by decide, by decide, rfl, rfl⟩,
    ⟨{ busyState with answers := [.bits (true :: List.replicate 63 false)] }, _, by decide, rfl, rfl, rfl⟩⟩

theorem witness_XchgFailureRaisesTransportFault :
    ∃ (s : State) (op : OpName) (rest : List Answer), s.phase = .exchange ∧ s.answers = .fail op :: rest :=
  ⟨{ busyState with answers := [.fail "transfer"] }, "transfer", [], by decide⟩

theorem witness_XchgNeedsAnAnswer :
    (∃ s : State, s.phase = .exchange ∧ s.answers = []) ∧
    (∃ s : State, ∃ r, s.phase = .exchange ∧ s.answers = [.bytes r] ∧ r.length ≠ s.n + 6) ∧
    (∃ s : State, ∃ l, s.phase = .exchange ∧ s.answers = [.bits l] ∧ l.length ≠ 8 * (s.n + 6)) :=
  ⟨⟨busyState, by decide⟩, ⟨{ busyState with answers := [.bytes (good.take 7)] }, good.take 7, by decide⟩,
    ⟨{ busyState with answers := [.bits (List.replicate 63 false)] }, List.replicate 63 false, by decide⟩⟩

theorem witness_SerialImageOfTheFrame :
    (∃ (s : State) (r : List Byte), s.phase = .build ∧ s.answers = [.bytes r] ∧ (Answer.bytes r).fitsFrame s.n) ∧
    (∃ (s : State) (l : List Bool), s.phase = .build ∧ s.answers = [.bits l] ∧ (Answer.bits l).fitsFrame s.n) ∧
    (∃ (s : State) (op : OpName), s.phase = .build ∧ s.answers = [.fail op] ∧ (Answer.fail op).fitsFrame s.n) :=
  ⟨⟨{ ref .build [] with answers := [.bytes good] }, good, by decide, by decide, rfl⟩,
    ⟨{ ref .build [] with answers := [.bits (List.replicate 64 true)] }, _, by decide, rfl, rfl⟩,
    ⟨{ ref .build [] with answers := [.fail "transfer"] }, "transfer", by decide, by decide, trivial⟩⟩

theorem witness_ValidPassesWhenReady :
    ∃ s : State, s.phase = .validate ∧ 1 ≤ s.n ∧ s.bufByte (s.n - 1) = 0xFE#8 :=
  ⟨ref .validate [0xFF#8, 0xFE#8], by decide⟩

theorem witness_ValidRaisesNotReady :
    (∃ s : State, s.phase = .validate ∧ 1 ≤ s.n ∧ s.bufByte (s.n - 1) = 0xFF#8) ∧
    (∃ s : State, s.phase = .validate ∧ s.n = 0) :=
  ⟨⟨ref .validate [0x00#8, 0xFF#8], by decide⟩, ⟨{ State.reset with phase := .validate }, by decide⟩⟩

theorem witness_LdrawLoadsWindow : ∃ s : State, s.phase = .load := ⟨ref .load good, by decide⟩

theorem witness_DstepConsumesPair :
    (∃ s : State, s.phase = .shift ∧ s.cnt.toNat = 0 ∧ s.raw.getLsbD 63 = s.raw.getLsbD 62) ∧
    (∃ s : State, s.phase = .shift ∧ s.cnt.toNat = 31 ∧ s.raw.getLsbD 63 = s.raw.getLsbD 62) :=
  ⟨⟨shifting 0#64 0#32 0#6, by decide⟩, ⟨shifting 0xC000000000000000#64 0x80000000#32 31#6, by decide⟩⟩

theorem witness_DstepMismatchRaises :
    ∃ s : State, s.phase = .shift ∧ s.cnt.toNat < 32 ∧ s.raw.getLsbD 63 ≠ s.raw.getLsbD 62 :=
  ⟨shifting 0x4000000000000000#64 0#32 31#6, by decide⟩

theorem witness_FinalDeliversOut : ∃ s : State, s.phase = .finish ∧ s.cnt.toNat = 32 :=
  ⟨{ ref .finish good with cnt := 32#6 }, by decide⟩

theorem witness_DecodeIsDecode48 : ∃ s : State, s.phase = .load ∧ s.windowBits = 0xC00000000003#48 :=
  ⟨ref .load good, by decide⟩

theorem witness_MacrosAreTheirSteps :
    (∃ s : State, s.phase = .load ∧ s.caller = []) ∧
    (∃ s : State, s.acceptsRead ∧ s.caller = [] ∧ s.answers ≠ []) :=
  ⟨⟨ref .load good, by decide⟩, ⟨asked (.bytes good), by unfold State.acceptsRead; decide⟩⟩

theorem witness_FirstEightIterationsConsumePadding : ∃ s : State, s.phase = .load ∧ s.caller = [] :=
  ⟨ref .load good, by decide⟩

/-- T5 rows 1 and 5: the first pair, and the last. -/
theorem witness_FirstBadPairRaisesInItsIteration :
    (∃ s : State, s.phase = .load ∧ s.caller = [] ∧ ¬ pairAgrees s.windowBits 0) ∧
    (∃ s : State, s.phase = .load ∧ s.caller = [] ∧ (∀ q < 23, pairAgrees s.windowBits q) ∧
      ¬ pairAgrees s.windowBits 23) := by
  refine ⟨⟨ref .load frame2, ?_⟩, ⟨ref .load [0x00#8, 0x00#8, 0x00#8, 0x00#8, 0x00#8, 0x00#8, 0x00#8, 0x01#8], ?_⟩⟩
  · unfold pairAgrees; decide
  · unfold pairAgrees; decide

/-- T4 row 6. -/
theorem witness_LegalWindowGivesSample : ∀ p < 24, pairAgrees 0x030C0F30333C#48 p := by
  unfold pairAgrees; decide

/-- T4 rows 4 and 6. -/
theorem witness_ExpandRoundTrip :
    Expands 0x800000#24 0xC00000000000#48 ∧ Expands 0x123456#24 0x030C0F30333C#48 ∧
    decode48 0x030C0F30333C#48 = .sample 0x00123456#32 := by
  unfold Expands
  set_option maxRecDepth 8000 in decide

theorem witness_ReadEndsWithReadOfAnswer :
    (∃ (s : State) (r : List Byte), s.acceptsRead ∧ s.answers = [.bytes r] ∧ (Answer.bytes r).fitsFrame s.n) ∧
    (∃ (s : State) (l : List Bool), s.acceptsRead ∧ s.answers = [.bits l] ∧ (Answer.bits l).fitsFrame s.n) ∧
    (∃ (s : State) (op : OpName), s.acceptsRead ∧ s.answers = [.fail op] ∧ (Answer.fail op).fitsFrame s.n) :=
  ⟨⟨asked (.bytes good), good, by unfold State.acceptsRead; decide, by decide, rfl⟩,
    ⟨asked (.bits (List.replicate 64 true)), _, by unfold State.acceptsRead; decide, rfl, rfl⟩,
    ⟨asked (.fail "transfer"), "transfer", by unfold State.acceptsRead; decide, by decide, trivial⟩⟩

theorem witness_ReadWithoutAnswerWaits : ∃ s : State, s.acceptsRead ∧ s.answers = [] :=
  ⟨ref .idle [], by unfold State.acceptsRead; decide⟩

theorem witness_ReadIndependentOfEarlierReads :
    ∃ (s₁ s₂ : State) (a : Answer), s₁.acceptsRead ∧ s₂.acceptsRead ∧ s₁.clockHz = s₂.clockHz ∧
      s₁.resetUs = s₂.resetUs ∧ a.fitsFrame s₁.n ∧ s₁.answers = [a] ∧ s₂.answers = [a] ∧ s₁.result ≠ s₂.result :=
  ⟨asked (.bytes good), { asked (.bytes good) with result := .notReady, raw := 5#64 }, .bytes good,
    by unfold State.acceptsRead; decide, by unfold State.acceptsRead; decide, by decide, by decide, rfl, by decide,
    by decide, by decide⟩

/-- T6 rows 1 and 4's ignored byte. -/
theorem witness_IgnoredBytesDoNotMatter :
    ∃ (s : State) (a a' : Answer) (r r' : List Byte), s.acceptsRead ∧ a.fitsFrame s.n ∧ a'.fitsFrame s.n ∧
      a.bytes? = some r ∧ a'.bytes? = some r' ∧ r ≠ r' ∧ ∀ i, s.n - 1 ≤ i → r[i]? = r'[i]? := by
  refine ⟨ref .idle [], .bytes good, .bytes (0xFF#8 :: good.tail), good, 0xFF#8 :: good.tail,
    by unfold State.acceptsRead; decide, rfl, rfl, rfl, rfl, by decide, ?_⟩
  rintro (_ | a) h
  · exact absurd h (by decide)
  · rfl

theorem witness_ReadExposesDebugPoints :
    (∃ s : State, s.acceptsRead ∧ s.answers = [.bytes good] ∧ (Answer.bytes good).fitsFrame s.n ∧ s.debug = true ∧
      (Answer.bytes good).bytes? = some good ∧ readOutcome s.n (.bytes good) = .sample 0x00800001#32) ∧
    (∃ s : State, s.acceptsRead ∧ s.answers = [.bytes good] ∧ (Answer.bytes good).fitsFrame s.n ∧ s.debug = false ∧
      (Answer.bytes good).bytes? = some good ∧ readOutcome s.n (.bytes good) = .sample 0x00800001#32) := by
  unfold State.acceptsRead Answer.fitsFrame
  refine ⟨⟨{ asked (.bytes good) with debug := true }, ?_⟩, ⟨asked (.bytes good), ?_⟩⟩
  · set_option maxRecDepth 8000 in decide
  · set_option maxRecDepth 8000 in decide

theorem witness_ScaleRange :
    ∃ (v w : SampleWord) (s t u : State) (x y : Scaled), exec (.scale v) s = .next t ∧ t.scaled = some x ∧
      exec (.scale w) s = .next u ∧ u.scaled = some y ∧ v.toNat < 2 ^ 24 ∧ v.toNat < w.toNat :=
  ⟨0x00FFFFFF#32, 0xFFFFFFFF#32, State.reset, _, _, _, _, rfl, rfl, rfl, rfl, by decide, by decide⟩

/-- Each clause at both ends of its range: byte 1 and byte 2, byte 7 of eight. -/
theorem witness_TransmitSymbolsSendTheirBits :
    (∃ s : State, s.phase = .exchange ∧ s.serial.length / 8 = 1 ∧ s.n = 2 ∧ s.bufByte 1 = 0x00#8) ∧
    (∃ s : State, s.phase = .exchange ∧ s.serial.length / 8 = 2 ∧ s.n = 2 ∧ s.bufByte 2 = 0xAA#8) ∧
    (∃ s : State, s.phase = .exchange ∧ s.serial.length / 8 = 7 ∧ s.n = 2 ∧ s.bufByte 7 = 0xAA#8) :=
  ⟨⟨{ busyState with serial := List.replicate 8 false }, by decide⟩,
    ⟨{ busyState with serial := List.replicate 16 false }, by decide⟩,
    ⟨{ busyState with serial := List.replicate 56 false }, by decide⟩⟩

theorem witness_ReadySymbolRaisesNotReady :
    (∃ s : State, s.phase = .validate ∧ 1 ≤ s.n ∧ s.bufByte (s.n - 1) = 0xFF#8) ∧
    (∃ s : State, s.phase = .validate ∧ 1 ≤ s.n ∧ s.bufByte (s.n - 1) ≠ 0xFF#8) :=
  ⟨⟨ref .validate [0x00#8, 0xFF#8], by decide⟩, ⟨ref .validate [0xFF#8, 0xFE#8], by decide⟩⟩

theorem witness_LegalPairsAppendTheirBit :
    ∀ b : Bool, ∃ s : State, s.phase = .shift ∧ s.cnt.toNat < 32 ∧ s.raw.getLsbD 63 = b ∧ s.raw.getLsbD 62 = b
  | false => ⟨shifting 0#64 0#32 31#6, by decide⟩
  | true => ⟨shifting 0xC000000000000000#64 0#32 0#6, by decide⟩

theorem witness_IllegalPairsRaise :
    ∀ b : Bool, ∃ s : State, s.phase = .shift ∧ s.cnt.toNat < 32 ∧ s.raw.getLsbD 63 = b ∧ s.raw.getLsbD 62 = !b
  | false => ⟨shifting 0x4000000000000000#64 0#32 31#6, by decide⟩
  | true => ⟨shifting 0x8000000000000000#64 0#32 0#6, by decide⟩

theorem witness_AbsentSymbolRefused :
    (∃ s : State, s.phase = .shift ∧ s.cnt.toNat < 32 ∧ ¬ (s.raw.getLsbD 63 = true ∧ s.raw.getLsbD 62 = true)) ∧
    (∃ s : State, s.phase = .exchange ∧ s.n ≤ s.serial.length / 8) ∧
    (∃ s : State, s.phase = .exchange ∧ s.serial.length / 8 < s.n) ∧
    (∃ s : State, s.phase = .exchange ∧ s.n + 6 ≤ s.serial.length / 8) :=
  ⟨⟨shifting 0#64 0#32 0#6, by decide⟩, ⟨{ busyState with serial := List.replicate 16 false }, by decide⟩,
    ⟨busyState, by decide⟩, ⟨{ busyState with serial := List.replicate 64 false }, by decide⟩⟩

end Sys2Proof.Machine.Tests
end

namespace Sys2Proof.Machine

/-- The case of `step` for an issued code that is an instruction, whatever bytes `decode` leaves over (R7, R16; log 7). -/
theorem step_issue_of_decode_instr {s : State} {c : Code} {queue : List CallerEvent} {i : Instr} {leftover : List Byte}
    (hcaller : s.caller = .issue c :: queue) (hdecode : decode c = .instr i leftover) :
    step s = exec i { s with caller := queue } := by
  simp only [step, hcaller, hdecode]

/-- Settles O14: the issued-code case of `step`, at a code whose bytes are all read. -/
theorem stepRunsIssuedInstruction : Obligations.StepRunsIssuedInstruction := by
  intro s c queue i hcaller hdecode
  exact step_issue_of_decode_instr hcaller hdecode

end Sys2Proof.Machine

/-! ### The invariant, state by state (spec/10_state.md R13 to R23)

One lemma per state a step can leave; `Inv.of_exec` and `everyStepKeepsInv` put them together. -/

namespace Sys2Proof.Machine

variable {s t : State}

/-- A run of writes inside the first `k` addresses lists none beyond them. -/
theorem Memory.keys_lt_writeBytes {m : Memory} {bs : List Byte} {k : Nat} (hm : ∀ c ∈ m, c.1 < k)
    (hbs : bs.length ≤ k) : ∀ c ∈ Memory.writeBytes m 0 bs, c.1 < k := by
  intro c hc
  rcases Memory.mem_keys_writeBytes bs (List.mem_map_of_mem hc) with ⟨-, hlt⟩ | hkey
  · omega
  · obtain ⟨c', hc', heq⟩ := List.mem_map.mp hkey
    exact heq ▸ hm c' hc'

/-- A run of writes lists every address of the run. -/
theorem Memory.isSome_read?_writeBytes (m : Memory) {bs : List Byte} {a : Nat} (ha : a < bs.length) :
    (Memory.read? (Memory.writeBytes m 0 bs) a).isSome = true := by
  rw [Memory.read?_writeBytes, if_pos ⟨Nat.zero_le a, by omega⟩]
  simpa using ha

/-- Outside a read: nothing is listed in BUF, and RESULT and N are as they were left. -/
theorem inv_of_idle (hphase : s.phase = .idle) (hbuf : s.buf = []) (hn : s.n = idleBytes s.clockHz s.resetUs)
    (hsample : ∀ v, s.result = .sample v → v.toNat < 2 ^ 24) : Inv s where
  bufWf := by simp [hbuf, Memory.wf]
  bufInRange := by simp [hbuf]
  bufIdle _ := hbuf
  bufFull h := absurd hphase h
  derivedN := hn
  busyLegal h := absurd hphase h
  exchangeFrame := by simp [hphase]
  serialPrefix := by simp [hphase]
  receivedBits h := absurd hphase h
  phaseUsed := by simp [hphase]
  shiftCount := by simp [hphase]
  finishCount := by simp [hphase]
  padding := by simp [hphase]
  outBits := by simp [hphase]
  sampleBits := hsample

/-- An abnormal outcome leaves the invariant, whatever the read had done (R137). -/
theorem inv_raise (hn : s.n = idleBytes s.clockHz s.resetUs) {o : Result} (ho : ∀ v, o ≠ .sample v) :
    Inv (s.raise o) :=
  inv_of_idle rfl rfl hn fun v hv => absurd hv (ho v)

/-- The zero profile of the reset state has no idle bytes (log 2). -/
theorem idleBytes_zero : idleBytes 0 0 = 0 := by decide

theorem inv_reset : Inv State.reset := inv_of_idle rfl rfl idleBytes_zero.symm fun _ hv => by cases hv

theorem inv_applyReset (s : State) : Inv s.applyReset := inv_of_idle rfl rfl idleBytes_zero.symm fun _ hv => by cases hv

/-- The invariant speaks of no queue and of neither DEBUG nor SCALE's record. -/
theorem Inv.of_inputs (h : Inv s) (queue : List CallerEvent) (b : Bool) (x : Option Scaled) :
    Inv { s with caller := queue, debug := b, scaled := x } :=
  { h with }

/-- IDLEB sets the Clock Profile and N together, in IDLE. -/
theorem Inv.configured (h : Inv s) (hphase : s.phase = .idle) (c r : Nat) :
    Inv { s with clockHz := c, resetUs := r, n := idleBytes c r } :=
  inv_of_idle hphase (h.bufIdle (.inl hphase)) rfl h.sampleBits

/-- A read is accepted in IDLE under a legal configuration. -/
theorem Inv.accept (h : Inv s) (hphase : s.phase = .idle) (hlegal : s.profileLegal = true) (hfits : s.fits = true) :
    Inv s.accept where
  bufWf := h.bufWf
  bufInRange := h.bufInRange
  bufIdle _ := h.bufIdle (.inl hphase)
  bufFull _ hbuild := absurd rfl hbuild
  derivedN := h.derivedN
  busyLegal _ := ⟨hlegal, hfits⟩
  exchangeFrame := by simp
  serialPrefix := by simp
  receivedBits _ hbuild := absurd rfl hbuild
  phaseUsed := by simp
  shiftCount := by simp
  finishCount := by simp
  padding := by simp
  outBits := by simp
  sampleBits := h.sampleBits

/-- ENCODE writes every byte of BUF; nothing of the frame is on the line yet. -/
theorem Inv.encoded (h : Inv s) (hphase : s.phase = .build) : Inv s.encoded where
  bufWf := Memory.wf_writeBytes _ h.bufWf 0
  bufInRange := Memory.keys_lt_writeBytes h.bufInRange (length_frame s.n).le
  bufIdle := by simp
  bufFull _ _ a ha := Memory.isSome_read?_writeBytes s.buf (by rw [length_frame]; exact ha)
  derivedN := h.derivedN
  busyLegal _ := h.busyLegal (by simp [hphase])
  exchangeFrame _ := by
    rw [State.bufBytes_of_written (State.encoded_buf s) 0 _ (by simp [State.bufLen]), List.drop_zero,
      List.take_of_length_le (by simp [State.bufLen])]
    rfl
  serialPrefix _ := ⟨0, rfl⟩
  receivedBits _ _ hexchange := absurd rfl hexchange
  phaseUsed := by simp
  shiftCount := by simp
  finishCount := by simp
  padding := by simp
  outBits := by simp
  sampleBits := h.sampleBits

/-- Handing the frame over puts the whole of it on the line. -/
theorem Inv.handOver (h : Inv s) (hphase : s.phase = .exchange) : Inv s.handOver :=
  { h with
    serialPrefix := fun _ => by
      refine ⟨(frame s.n).length, ?_⟩
      rw [State.handOver_serial, State.handOver_n, List.take_length, ← h.exchangeFrame hphase]
      rfl }

/-- A received frame of the frame's length is in BUF, bit for bit. -/
theorem Inv.received (h : Inv s) (hphase : s.phase = .exchange) {line : List Bool} (rest : List Answer)
    (hline : line.length = unitBits * s.bufLen) : Inv ({ s.handOver with answers := rest }.received line) where
  bufWf := Memory.wf_writeBytes _ h.bufWf 0
  bufInRange := Memory.keys_lt_writeBytes h.bufInRange (length_packBits hline).le
  bufIdle := by simp
  bufFull _ _ a ha := Memory.isSome_read?_writeBytes s.buf (by rw [length_packBits hline]; exact ha)
  derivedN := h.derivedN
  busyLegal _ := h.busyLegal (by simp [hphase])
  exchangeFrame := by simp
  serialPrefix := by simp
  receivedBits _ _ _ j hj := by
    have hlen : j < 8 * (packBits line).length := by rw [length_packBits hline]; exact hj
    have hbyte : (packBits line)[j / 8]? = some (packBits line)[j / 8] := List.getElem?_eq_getElem (by omega)
    rw [State.received_serialIn, State.bufByte_of_written (State.received_buf _ line) hbyte]
    conv_lhs => rw [← serialImage_packBits hline]
    rw [serialImage_getElem? _ hlen, hbyte, Option.map_some]
  phaseUsed := by simp
  shiftCount := by simp
  finishCount := by simp
  padding := by simp
  outBits := by simp
  sampleBits := h.sampleBits

/-- After the exchange, a change of the decoder's registers and of PHASE leaves only the decoder's bounds to show. -/
theorem Inv.decoding (h : Inv s) (hbusy : s.phase ∈ [Phase.validate, .load, .shift]) {raw : RawWord}
    {out : SampleWord} {cnt : CountWord} {p : Phase} {dump : List DebugPoint}
    (hp : p ∈ [Phase.load, .shift, .finish]) (hshift : p = .shift → cnt.toNat < 32)
    (hfinish : p = .finish → cnt.toNat = 32)
    (hpadding : p = .shift → cnt.toNat ≤ 8 → out = 0#32 ∧ raw.toNat < 2 ^ (48 + 2 * cnt.toNat))
    (hout : p = .shift ∨ p = .finish → 8 ≤ cnt.toNat → out.toNat < 2 ^ (cnt.toNat - 8)) :
    Inv { s with raw := raw, out := out, cnt := cnt, phase := p, dump := dump } := by
  have hs : s.phase ≠ .idle ∧ s.phase ≠ .build ∧ s.phase ≠ .exchange := by
    simp only [List.mem_cons, List.not_mem_nil, or_false] at hbusy
    rcases hbusy with hb | hb | hb <;> simp [hb]
  have hp' : p ≠ .idle ∧ p ≠ .build ∧ p ≠ .exchange ∧ p ≠ .unused := by
    simp only [List.mem_cons, List.not_mem_nil, or_false] at hp
    rcases hp with rfl | rfl | rfl <;> decide
  obtain ⟨hidle, hbuild, hexchange⟩ := hs
  obtain ⟨hidle', hbuild', hexchange', hunused'⟩ := hp'
  exact
    { h with
      bufIdle := fun hpre => (hpre.elim hidle' hbuild').elim
      bufFull := fun _ _ => h.bufFull hidle hbuild
      busyLegal := fun _ => h.busyLegal hidle
      exchangeFrame := fun he => absurd he hexchange'
      serialPrefix := fun he => absurd he hexchange'
      receivedBits := fun _ _ _ => h.receivedBits hidle hbuild hexchange
      phaseUsed := hunused'
      shiftCount := hshift
      finishCount := hfinish
      padding := hpadding
      outBits := hout }

/-! ### The decoder's registers (spec/43_decode.md R100 to R106) -/

theorem beNat_lt (bytes : List Byte) : beNat bytes < 256 ^ bytes.length := by
  induction bytes using List.reverseRecOn with
  | nil => simp [beNat]
  | append_singleton bytes b ih =>
    have hb := b.isLt
    simp only [beNat, List.foldl_append, List.foldl_cons, List.foldl_nil, List.length_append, List.length_singleton,
      Nat.pow_succ] at ih ⊢
    omega

theorem State.window_lt (s : State) : s.window < 2 ^ 48 := by
  have h := beNat_lt (s.bufBytes s.n dataBytes)
  rw [State.length_bufBytes] at h
  exact h

/-- Appending a bit doubles OUT and adds the bit, while bit 31 is clear (R101). -/
theorem appendBit_toNat {out : SampleWord} (h : out.toNat < 2 ^ 31) (b : Bool) :
    (appendBit out b).toNat = 2 * out.toNat + b.toNat := by
  have hb : b.toNat < 2 ^ 1 := b.toNat_lt
  rw [appendBit, BitVec.toNat_or, BitVec.toNat_shiftLeft, BitVec.toNat_setWidth, BitVec.toNat_ofBool,
    Nat.mod_eq_of_lt (by omega), Nat.mod_eq_of_lt (by omega), ← Nat.shiftLeft_add_eq_or_of_lt hb, Nat.shiftLeft_eq]
  omega

/-- In the padding the pair at the top of RAW is zero (R106). -/
theorem State.b1_of_raw_lt (h : s.raw.toNat < 2 ^ 62) : s.b1 = false :=
  Nat.testBit_lt_two_pow (h.trans (by decide))

/-- LDRAW loads a window of 48 bits over cleared OUT and CNT. -/
theorem Inv.loaded (h : Inv s) (hphase : s.phase = .load) :
    Inv { s with raw := BitVec.ofNat 64 s.window, out := 0#32, cnt := 0#6, phase := .shift } := by
  refine h.decoding (by simp [hphase]) (by simp) (by simp) (by simp) (fun _ _ => ⟨rfl, ?_⟩) (by simp)
  rw [BitVec.toNat_ofNat]
  exact (Nat.mod_le _ _).trans_lt s.window_lt

/-- A DSTEP in the padding: RAW moves up by the zero pair at its top, OUT stays zero. -/
theorem State.shifted_in_padding (hpad : s.out = 0#32 ∧ s.raw.toNat < 2 ^ (48 + 2 * s.cnt.toNat))
    (hcnt : s.cnt.toNat < 8) :
    appendBit s.out s.b1 = 0#32 ∧ (s.raw <<< 2).toNat < 2 ^ (48 + 2 * (s.cnt.toNat + 1)) := by
  obtain ⟨hout, hraw⟩ := hpad
  have hraw62 : s.raw.toNat < 2 ^ 62 := hraw.trans_le (Nat.pow_le_pow_right (by decide) (by omega))
  refine ⟨by rw [hout, State.b1_of_raw_lt hraw62]; rfl, ?_⟩
  have hdouble : 2 ^ (48 + 2 * (s.cnt.toNat + 1)) = 2 ^ (48 + 2 * s.cnt.toNat) * 4 := by ring
  rw [BitVec.toNat_shiftLeft, Nat.shiftLeft_eq, hdouble]
  omega

/-- A DSTEP past the padding: OUT gains one significant bit. -/
theorem State.out_shifted_lt (hcnt : s.cnt.toNat < 32) (h8 : 8 ≤ s.cnt.toNat)
    (hout : s.out.toNat < 2 ^ (s.cnt.toNat - 8)) :
    (appendBit s.out s.b1).toNat < 2 ^ (s.cnt.toNat + 1 - 8) := by
  have hout31 : s.out.toNat < 2 ^ 31 := hout.trans_le (Nat.pow_le_pow_right (by decide) (by omega))
  have hb := s.b1.toNat_lt
  rw [appendBit_toNat hout31, show s.cnt.toNat + 1 - 8 = s.cnt.toNat - 8 + 1 by omega, Nat.pow_succ]
  omega

/-- CNT counts without wrapping while it is below 32 (R13). -/
theorem State.toNat_cnt_succ (h : s.cnt.toNat < 32) : (s.cnt + 1#6).toNat = s.cnt.toNat + 1 := by bv_omega

/-- A DSTEP on an agreeing pair: one more bit of OUT, or one more pair of padding. -/
theorem Inv.shifted (h : Inv s) (hphase : s.phase = .shift) : Inv s.shifted := by
  have hlt := h.shiftCount hphase
  have hcnt := State.toNat_cnt_succ hlt
  refine h.decoding (by simp [hphase]) ?_ ?_ ?_ ?_ ?_
  · split <;> simp
  · rw [hcnt]
    split
    · simp
    · exact fun _ => lt_of_le_of_ne hlt ‹_›
  · rw [hcnt]
    split
    · exact fun _ => ‹_›
    · simp
  · rw [hcnt]
    exact fun _ hle => State.shifted_in_padding (h.padding hphase (by omega)) (by omega)
  · rw [hcnt]
    intro _ hle
    by_cases h8 : 8 ≤ s.cnt.toNat
    · exact State.out_shifted_lt hlt h8 (h.outBits (.inl hphase) h8)
    · have hcnt7 : s.cnt.toNat = 7 := by omega
      rw [(State.shifted_in_padding (h.padding hphase (by omega)) (by omega)).1, hcnt7]
      decide

/-- FINAL delivers 24 significant bits: OUT after the eight padding pairs (R61, R102). -/
theorem Inv.delivered (h : Inv s) (hphase : s.phase = .finish) : Inv s.delivered := by
  refine inv_of_idle rfl rfl h.derivedN fun v hv => ?_
  have hout := h.outBits (.inr hphase)
  rw [h.finishCount hphase] at hout
  cases hv
  exact hout (by decide)

/-! ### The line (spec/30_encoding.md R51, R53) -/

theorem serialImage_append (a b : List Byte) : serialImage (a ++ b) = serialImage a ++ serialImage b :=
  List.flatMap_append

/-- A symbol sent at its place extends what is on the line by the frame's next byte. -/
theorem Inv.sent (h : Inv s) (hphase : s.phase = .exchange) (hplace : s.sendAddress < s.bufLen) :
    Inv { s with serial := s.serial ++ byteBits (s.bufByte s.sendAddress) } :=
  { h with
    serialPrefix := fun _ => by
      obtain ⟨k, hk⟩ := h.serialPrefix hphase
      have haddr : s.sendAddress = min k s.bufLen := by
        simp [State.sendAddress, hk, unitBits, State.bufLen]
      have hk' : s.sendAddress = k := by omega
      have hbyte : (frame s.n)[k]? = some (s.bufByte k) := by
        rw [← h.exchangeFrame hphase, State.getElem?_bufBytes _ _ _ _ (hk' ▸ hplace), Nat.zero_add]
      refine ⟨k + 1, ?_⟩
      simp only [hk', hk, List.take_add_one, hbyte, serialImage_append]
      rfl }

/-! ### Every step -/

/-- A micro-operation of a read that answers a next state, whichever instruction it is part of. -/
inductive MicroStep (s t : State) : Prop
  | encode (h : opEncode s = .next t)
  | xchg (h : opXchg s = .next t)
  | valid (h : opValid s = .next t)
  | ldraw (h : opLdraw s = .next t)
  | dstep (h : opDstep s = .next t)
  | final (h : opFinal s = .next t)

/-- `exec_keeps` with the micro-operations under one hypothesis. -/
theorem exec_keeps_of_microStep {P : State → Prop} {i : Instr} (hmicro : ∀ u v, P u → MicroStep u v → P v)
    (hid : ∀ c r, s.phase = .idle → P { s with clockHz := c, resetUs := r, n := idleBytes c r })
    (hh : ∀ u, P u → u.phase = .exchange → P u.handOver)
    (ha : i = .read → s.phase = .idle → s.profileLegal = true → s.fits = true → P s.accept)
    (hsc : ∀ x, P { s with scaled := x })
    (htx : s.phase = .exchange → s.sendAddress < s.bufLen →
      P { s with serial := s.serial ++ byteBits (s.bufByte s.sendAddress) })
    (hs : P s) (h : exec i s = .next t) : P t :=
  exec_keeps (fun c r hphase _ => hid c r hphase) (fun u v hu hv => hmicro u v hu (.encode hv))
    (fun u v hu hv => hmicro u v hu (.xchg hv)) (fun u v hu hv => hmicro u v hu (.valid hv))
    (fun u v hu hv => hmicro u v hu (.ldraw hv)) (fun u v hu hv => hmicro u v hu (.dstep hv))
    (fun u v hu hv => hmicro u v hu (.final hv)) hh ha hsc
    (fun _ hphase hplace hbyte => hbyte ▸ htx hphase hplace) hs h

/-- Every micro-operation keeps the invariant. -/
theorem Inv.of_microStep (h : Inv s) (hstep : MicroStep s t) : Inv t := by
  cases hstep with
  | encode hstep =>
    obtain ⟨hphase, rfl⟩ := opEncode_cases hstep
    exact h.encoded hphase
  | xchg hstep =>
    obtain ⟨hphase, ⟨op, rest, -, rfl⟩ | ⟨a, line, rest, -, -, hline, rfl⟩⟩ := opXchg_cases hstep
    · refine inv_raise ?_ (by simp)
      exact h.derivedN
    · exact h.received hphase rest hline
  | valid hstep =>
    obtain ⟨hphase, -, ⟨-, rfl⟩ | ⟨-, rfl⟩⟩ := opValid_cases hstep
    · exact inv_raise h.derivedN (by simp)
    · exact h.decoding (by simp [hphase]) (by simp) (by simp) (by simp) (by simp) (by simp)
  | ldraw hstep =>
    obtain ⟨hphase, rfl⟩ := opLdraw_cases hstep
    exact h.loaded hphase
  | dstep hstep =>
    obtain ⟨hphase, -, ⟨-, rfl⟩ | ⟨-, rfl⟩⟩ := opDstep_cases hstep
    · exact inv_raise h.derivedN (by simp)
    · exact h.shifted hphase
  | final hstep =>
    obtain ⟨hphase, -, rfl⟩ := opFinal_cases hstep
    exact h.delivered hphase

/-- Every instruction keeps the invariant. -/
theorem Inv.of_exec (h : Inv s) {i : Instr} (hstep : exec i s = .next t) : Inv t :=
  exec_keeps_of_microStep (fun _ _ => Inv.of_microStep) (fun c r hphase => h.configured hphase c r)
    (fun _ => Inv.handOver) (fun _ => h.accept) (h.of_inputs s.caller s.debug) h.sent h hstep

/-! ### What a step serves (log 7) -/

theorem step_setDebug {b : Bool} {queue : List CallerEvent} (hcaller : s.caller = .setDebug b :: queue) :
    step s = if s.phase = .idle then .next { s with caller := queue, debug := b } else .refused .busy := by
  simp only [step, hcaller]

theorem step_resetEvent {queue : List CallerEvent} (hcaller : s.caller = .reset :: queue) :
    step s = .next { s with caller := queue }.applyReset := by
  simp only [step, hcaller]

theorem step_issue_of_decode_reject {c : Code} {queue : List CallerEvent} {e : DecodeError}
    (hcaller : s.caller = .issue c :: queue) (hdecode : decode c = .reject e) :
    step s = .refused (.undecodable e) := by
  simp only [step, hcaller, hdecode]

/-- With nothing issued, a step runs the operation PHASE names (R15, R16). -/
theorem step_of_operation {i : Instr} (hcaller : s.caller = []) (hop : s.phase.operation = some i) :
    step s = exec i s := by
  simp only [step, hcaller, hop]

theorem step_of_no_operation (hcaller : s.caller = []) (hop : s.phase.operation = none) :
    step s = if s.phase = .idle then .next s else .refused .unusedPhase := by
  simp only [step, hcaller, hop]

/-- Everything a step can do when it answers a next state. -/
theorem step_cases (h : step s = .next t) :
    (∃ i queue, exec i { s with caller := queue } = .next t) ∨
    (∃ b queue, s.phase = .idle ∧ t = { s with caller := queue, debug := b }) ∨
    (∃ queue, t = { s with caller := queue }.applyReset) ∨
    (∃ i, s.phase.operation = some i ∧ exec i s = .next t) ∨
    (s.phase = .idle ∧ t = s) := by
  match hcaller : s.caller with
  | .issue c :: queue =>
    cases hdecode : decode c with
    | instr i leftover => exact .inl ⟨i, queue, step_issue_of_decode_instr hcaller hdecode ▸ h⟩
    | reject e => rw [step_issue_of_decode_reject hcaller hdecode] at h; cases h
  | .setDebug b :: queue =>
    rw [step_setDebug hcaller] at h
    split at h <;> cases h
    exact .inr (.inl ⟨b, queue, ‹_›, rfl⟩)
  | .reset :: queue =>
    rw [step_resetEvent hcaller] at h
    cases h
    exact .inr (.inr (.inl ⟨queue, rfl⟩))
  | [] =>
    cases hop : s.phase.operation with
    | some i => exact .inr (.inr (.inr (.inl ⟨i, rfl, step_of_operation hcaller hop ▸ h⟩)))
    | none =>
      rw [step_of_no_operation hcaller hop] at h
      split at h <;> cases h
      exact .inr (.inr (.inr (.inr ⟨‹_›, rfl⟩)))

/-- Settles O4: each thing a step can do keeps the invariant. -/
theorem everyStepKeepsInv : Obligations.EveryStepKeepsInv := by
  intro s t h hstep
  obtain ⟨i, queue, hexec⟩ | ⟨b, queue, -, rfl⟩ | ⟨queue, rfl⟩ | ⟨i, -, hexec⟩ | ⟨-, rfl⟩ :=
    step_cases hstep
  · exact (h.of_inputs queue s.debug s.scaled).of_exec hexec
  · exact h.of_inputs queue b s.scaled
  · exact inv_applyReset _
  · exact h.of_exec hexec
  · exact h

/-- Settles O3: at reset the machine is idle, BUF is empty and the profile is zero. -/
theorem invHoldsAtReset : Obligations.InvHoldsAtReset := inv_reset

/-- Settles O1: the reset state's own values. -/
theorem resetLeavesIdleWithNoOutcome : Obligations.ResetLeavesIdleWithNoOutcome := ⟨rfl, rfl, rfl, rfl⟩

/-- Settles O15: the operation of each phase, and the two phases that have none. -/
theorem stepRunsOperationOfPhase : Obligations.StepRunsOperationOfPhase := by
  intro s hcaller
  have hrun (p : Phase) (i : Instr) (hop : p.operation = some i) (hphase : s.phase = p) : step s = exec i s :=
    step_of_operation hcaller (hphase ▸ hop)
  refine ⟨fun hphase => ?_, hrun _ _ rfl, hrun _ _ rfl, hrun _ _ rfl, hrun _ _ rfl, hrun _ _ rfl, hrun _ _ rfl,
    fun hphase => ?_⟩
  · rw [step_of_no_operation hcaller (by rw [hphase]; rfl), if_pos hphase]
  · rw [step_of_no_operation hcaller (by rw [hphase]; rfl), if_neg (by simp [hphase])]

/-- Settles O16: the two answers of a step that serves a DEBUG value. -/
theorem callerSetsDebugBetweenReads : Obligations.CallerSetsDebugBetweenReads := by
  intro s b queue hcaller
  rw [step_setDebug hcaller]
  exact ⟨fun hphase => if_pos hphase, fun hphase => if_neg hphase⟩

end Sys2Proof.Machine

/-! ### Outside the precondition (spec/10_state.md R16; log 17) -/

namespace Sys2Proof.Machine

variable {s t : State}

theorem opLdraw_outOfPhase (h : s.phase ≠ .load) : opLdraw s = .refused .outOfPhase := if_neg h

/-- DECODE starts with LDRAW, so what LDRAW refuses DECODE refuses. -/
theorem opDecode_outOfPhase (h : s.phase ≠ .load) : opDecode s = .refused .outOfPhase := by
  rw [opDecode, opLdraw_outOfPhase h]
  rfl

/-- Settles O22: each operation's own test of PHASE, and of CNT, fails. -/
theorem outsidePreconditionRefused : Obligations.OutsidePreconditionRefused := by
  intro s
  refine ⟨fun h => if_neg h, fun h => ⟨if_neg h, if_neg h, if_neg h⟩, fun h => ⟨if_neg h, if_neg h⟩,
    fun h => ⟨opLdraw_outOfPhase h, opDecode_outOfPhase h⟩, fun h i hi => ?_, fun h => if_neg ?_⟩
  · have hpre : ¬ (s.phase = .shift ∧ s.cnt.toNat < iterations) := fun ⟨hphase, hcnt⟩ =>
      h.elim (fun hne => hne hphase) (fun hle => absurd hcnt (Nat.not_lt.mpr hle))
    simp only [List.mem_cons, List.not_mem_nil, or_false] at hi
    rcases hi with rfl | rfl | rfl | rfl | rfl <;> exact if_neg hpre
  · exact fun ⟨hphase, hcnt⟩ => h.elim (fun hne => hne hphase) (fun hne => hne hcnt)

/-! ### DEBUG has no behavioural effect (spec/10_state.md R22) -/

/-- An operation whose outcome is the same, the dump and DEBUG aside, with DEBUG = 0 and an empty dump. -/
def IgnoresDebug (f : State → StepResult) : Prop :=
  ∀ s, eraseDebugOutcome (f s) = eraseDebugOutcome (f s.eraseDebug)

namespace IgnoresDebug

variable {f g : State → StepResult}

/-- So it is the same from any two states that differ in DEBUG and the dump alone. -/
theorem congr (hf : IgnoresDebug f) {s s' : State} (h : s.eraseDebug = s'.eraseDebug) :
    eraseDebugOutcome (f s) = eraseDebugOutcome (f s') := by
  rw [hf s, hf s', h]

/-- An operation that starts by a state change which ignores DEBUG. -/
theorem comp (hf : IgnoresDebug f) {g : State → State} (hg : ∀ s, (g s).eraseDebug = (g s.eraseDebug).eraseDebug) :
    IgnoresDebug fun s => f (g s) :=
  fun s => hf.congr (hg s)

theorem next {g : State → State} (hg : ∀ s, (g s).eraseDebug = (g s.eraseDebug).eraseDebug) :
    IgnoresDebug fun s => .next (g s) :=
  fun s => congrArg Host.Outcome.next (hg s)

theorem refused (r : Refusal) : IgnoresDebug fun _ => .refused r := fun _ => rfl

/-- A choice by a test that does not look at DEBUG. -/
theorem ite {c : State → Prop} [DecidablePred c] (hc : ∀ s, c s.eraseDebug ↔ c s) (hf : IgnoresDebug f)
    (hg : IgnoresDebug g) : IgnoresDebug fun s => if c s then f s else g s := by
  intro s
  by_cases h : c s
  · simpa only [if_pos h, if_pos ((hc s).mpr h)] using hf s
  · simpa only [if_neg h, if_neg (mt (hc s).mp h)] using hg s

/-- Erasing after a sequence is erasing after each half. -/
theorem eraseDebugOutcome_thenAt (hf : IgnoresDebug f) (o : StepResult) (p : Phase) :
    eraseDebugOutcome (thenAt o p f) = thenAt (eraseDebugOutcome o) p fun s => eraseDebugOutcome (f s) := by
  cases o with
  | next s =>
    by_cases h : s.phase = p
    · rw [thenAt_next_pos h, hf s]
      exact (thenAt_next_pos (u := s.eraseDebug) (k := fun s => eraseDebugOutcome (f s)) h).symm
    · rw [thenAt_next_neg h]
      exact (thenAt_next_neg (u := s.eraseDebug) h).symm
  | fault r => rfl
  | refused r => rfl

theorem thenAt {o : State → StepResult} (ho : IgnoresDebug o) (p : Phase) (hf : IgnoresDebug f) :
    IgnoresDebug fun s => thenAt (o s) p f := by
  intro s
  rw [eraseDebugOutcome_thenAt hf, ho s, ← eraseDebugOutcome_thenAt hf]

end IgnoresDebug

/-! ### The micro-operations and their sequences -/

theorem ignoresDebug_opEncode : IgnoresDebug opEncode :=
  .ite (fun _ => .rfl) (.next fun _ => rfl) (.refused _)

theorem ignoresDebug_opReceive (line : List Bool) (rest : List Answer) : IgnoresDebug (opReceive line rest) :=
  .ite (fun _ => .rfl) (.next fun _ => rfl) (.refused _)

theorem ignoresDebug_opXchg : IgnoresDebug opXchg := by
  refine .ite (fun _ => .rfl) (fun s => ?_) (.refused _)
  rw [show s.eraseDebug.answers = s.answers from rfl]
  cases s.answers with
  | nil => rfl
  | cons a rest =>
    cases a with
    | fail op => rfl
    | bytes r => exact ignoresDebug_opReceive _ rest s
    | bits line => exact ignoresDebug_opReceive line rest s

theorem ignoresDebug_opValid : IgnoresDebug opValid := by
  refine .ite (fun _ => .rfl) (fun s => ?_) (.refused _)
  rw [show s.eraseDebug.readyByte? = s.readyByte? from rfl]
  cases s.readyByte? with
  | none => rfl
  | some ready => cases h : sentinel ready <;> simp only [h] <;> rfl

theorem ignoresDebug_opLdraw : IgnoresDebug opLdraw :=
  .ite (fun _ => .rfl) (.next fun _ => rfl) (.refused _)

theorem ignoresDebug_opDstep : IgnoresDebug opDstep :=
  .ite (fun _ => .rfl) (.ite (fun _ => .rfl) (.next fun _ => rfl) (.next fun _ => rfl)) (.refused _)

theorem ignoresDebug_opFinal : IgnoresDebug opFinal :=
  .ite (fun _ => .rfl) (.next fun _ => rfl) (.refused _)

theorem ignoresDebug_opDsteps (k : Nat) : IgnoresDebug (opDsteps k) := by
  induction k with
  | zero => exact .next fun _ => rfl
  | succ k ih => exact ignoresDebug_opDstep.thenAt .shift ih

theorem ignoresDebug_opDecode : IgnoresDebug opDecode :=
  (ignoresDebug_opLdraw.thenAt .shift (ignoresDebug_opDsteps iterations)).thenAt .finish ignoresDebug_opFinal

theorem ignoresDebug_opXchgOrWait : IgnoresDebug opXchgOrWait :=
  .ite (fun _ => .rfl) (.next fun _ => rfl) ignoresDebug_opXchg

theorem ignoresDebug_opReadSequence : IgnoresDebug opReadSequence :=
  ((ignoresDebug_opEncode.thenAt .exchange ignoresDebug_opXchgOrWait).thenAt .validate
    ignoresDebug_opValid).thenAt .load ignoresDebug_opDecode

theorem ignoresDebug_opRead : IgnoresDebug opRead :=
  .ite (fun _ => .rfl) (.refused _) <| .ite (fun _ => .rfl) (.refused _) <| .ite (fun _ => .rfl) (.refused _) <|
    ignoresDebug_opReadSequence.comp fun _ => rfl

theorem ignoresDebug_opSend (b : Byte) (lo hi : State → Nat) (hlo : ∀ s, lo s.eraseDebug = lo s)
    (hhi : ∀ s, hi s.eraseDebug = hi s) : IgnoresDebug fun s => opSend b (lo s) (hi s) s := by
  refine .ite (fun _ => .rfl) (.ite (fun s => ?_) (.next fun _ => rfl) (.refused _)) (.refused _)
  rw [hlo, hhi]
  rfl

theorem ignoresDebug_opPair (x y : Bool) : IgnoresDebug (opPair x y) :=
  .ite (fun _ => .rfl) (.ite (fun _ => .rfl) ignoresDebug_opDstep (.refused _)) (.refused _)

theorem ignoresDebug_opNotReady : IgnoresDebug opNotReady := by
  refine .ite (fun _ => .rfl) (fun s => ?_) (.refused _)
  rw [show s.eraseDebug.readyByte? = s.readyByte? from rfl]
  cases s.readyByte? with
  | none => rfl
  | some ready =>
    cases h : sentinel ready <;> simp only [h]
    · rfl
    · exact ignoresDebug_opValid s

theorem ignoresDebug_execIdleb (clockHz resetUs : Nat) : IgnoresDebug (execIdleb clockHz resetUs) :=
  .ite (fun _ => .rfl) (.refused _) (.ite (fun _ => .rfl) (.next fun _ => rfl) (.refused _))

theorem ignoresDebug_exec (i : Instr) : IgnoresDebug (exec i) := by
  cases i with
  | idleb c r => exact ignoresDebug_execIdleb c r
  | encode => exact ignoresDebug_opEncode
  | xchg => exact ignoresDebug_opXchg
  | valid => exact ignoresDebug_opValid
  | ldraw => exact ignoresDebug_opLdraw
  | dstep => exact ignoresDebug_opDstep
  | final => exact ignoresDebug_opFinal
  | decode => exact ignoresDebug_opDecode
  | read => exact ignoresDebug_opRead
  | scale v => exact .next fun _ => rfl
  | txidle => exact ignoresDebug_opSend idleByte (fun _ => 0) State.n (fun _ => rfl) fun _ => rfl
  | txclk => exact ignoresDebug_opSend clockByte State.n State.bufLen (fun _ => rfl) fun _ => rfl
  | rxnotrdy => exact ignoresDebug_opNotReady
  | pair0 => exact ignoresDebug_opPair false false
  | pair1 => exact ignoresDebug_opPair true true
  | pairx01 => exact ignoresDebug_opPair false true
  | pairx10 => exact ignoresDebug_opPair true false

/-- What a step does in IDLE only. -/
theorem ignoresDebug_inIdle {g : State → State} (hg : ∀ s, (g s).eraseDebug = (g s.eraseDebug).eraseDebug)
    (r : Refusal) : IgnoresDebug fun s => if s.phase = .idle then .next (g s) else .refused r :=
  .ite (fun _ => .rfl) (.next hg) (.refused r)

theorem ignoresDebug_step : IgnoresDebug step := by
  intro s
  match hcaller : s.caller with
  | .issue c :: queue =>
    cases hdecode : decode c with
    | instr i leftover =>
      rw [step_issue_of_decode_instr hcaller hdecode, step_issue_of_decode_instr (s := s.eraseDebug) hcaller hdecode]
      exact ignoresDebug_exec i { s with caller := queue }
    | reject e =>
      rw [step_issue_of_decode_reject hcaller hdecode, step_issue_of_decode_reject (s := s.eraseDebug) hcaller hdecode]
  | .setDebug b :: queue =>
    rw [step_setDebug hcaller, step_setDebug (s := s.eraseDebug) hcaller]
    exact ignoresDebug_inIdle (g := fun s => { s with caller := queue, debug := b }) (fun _ => rfl) _ s
  | .reset :: queue =>
    rw [step_resetEvent hcaller, step_resetEvent (s := s.eraseDebug) hcaller]
    rfl
  | [] =>
    cases hop : s.phase.operation with
    | some i =>
      rw [step_of_operation hcaller hop, step_of_operation (s := s.eraseDebug) hcaller hop]
      exact ignoresDebug_exec i s
    | none =>
      rw [step_of_no_operation hcaller hop, step_of_no_operation (s := s.eraseDebug) hcaller hop]
      exact ignoresDebug_inIdle (g := id) (fun _ => rfl) _ s

/-- Settles O8: every micro-operation ignores DEBUG, and so does every sequence of them. -/
theorem debugHasNoBehaviouralEffect : Obligations.DebugHasNoBehaviouralEffect :=
  ⟨ignoresDebug_exec, ignoresDebug_step⟩

end Sys2Proof.Machine

/-! ### The decode pass and where a read ends (spec/10_state.md R16, spec/43_decode.md R103) -/

namespace Sys2Proof.Machine

variable {s t : State}

/-- An iteration on a pair that differs ends the pass, and Decode48's loop with it (R101). -/
theorem opDsteps_differ (k : Nat) (hphase : s.phase = .shift) (hcnt : s.cnt.toNat < iterations)
    (hpair : s.b1 ≠ s.b2) :
    opDsteps (k + 1) s = .next (s.raise .integrityViolation) ∧
      decodeLoop (k + 1) s.raw s.out = .integrityViolation := by
  refine ⟨?_, if_neg hpair⟩
  rw [opDsteps, opDstep_differ hphase hcnt hpair, thenAt_next_neg (by simp)]

/-- The rest of the pass, from SHIFT with `k + 1` of the 32 iterations to go, is Decode48's loop: it ends in FINISH with
the sample in OUT, or has raised (R101, R103, R111). -/
theorem opDsteps_eq_decodeLoop (k : Nat) (hphase : s.phase = .shift) (hcnt : s.cnt.toNat + (k + 1) = iterations) :
    ∃ t, opDsteps (k + 1) s = .next t ∧
      ((t.phase = .finish ∧ t.cnt.toNat = iterations ∧ decodeLoop (k + 1) s.raw s.out = .sample t.out) ∨
       (t.phase = .idle ∧ decodeLoop (k + 1) s.raw s.out = t.result)) := by
  have hlt : s.cnt.toNat < iterations := by omega
  induction k generalizing s with
  | zero =>
    by_cases hpair : s.b1 = s.b2
    · refine ⟨s.shifted, ?_, .inl ⟨?_, ?_, if_pos hpair⟩⟩
      · rw [opDsteps, opDstep_agree hphase hlt hpair, thenAt_next_neg (by simp [hcnt])]
      · simp [hcnt]
      · rw [State.shifted_cnt, State.toNat_cnt_succ hlt, hcnt]
    · obtain ⟨hsteps, hloop⟩ := opDsteps_differ 0 hphase hlt hpair
      exact ⟨_, hsteps, .inr ⟨rfl, hloop⟩⟩
  | succ k ih =>
    by_cases hpair : s.b1 = s.b2
    · have hnext : s.shifted.phase = .shift := by rw [State.shifted_phase, if_neg (by omega)]
      have hcnt' : s.shifted.cnt.toNat + (k + 1) = iterations := by
        rw [State.shifted_cnt, State.toNat_cnt_succ hlt]
        omega
      have hloop : decodeLoop (k + 1 + 1) s.raw s.out = decodeLoop (k + 1) s.shifted.raw s.shifted.out :=
        if_pos hpair
      rw [opDsteps, opDstep_agree hphase hlt hpair, thenAt_next_pos hnext, hloop]
      exact ih hnext hcnt' (by omega)
    · obtain ⟨hsteps, hloop⟩ := opDsteps_differ (k + 1) hphase hlt hpair
      exact ⟨_, hsteps, .inr ⟨rfl, hloop⟩⟩

/-- DECODE from LOAD answers a next state in IDLE, with the outcome of Decode48's loop on the loaded window (R103). -/
theorem opDecode_eq_decodeLoop (hphase : s.phase = .load) :
    ∃ t, opDecode s = .next t ∧ t.phase = .idle ∧
      t.result = decodeLoop iterations (BitVec.ofNat 64 s.window) 0#32 := by
  obtain ⟨u, hu, ⟨hfinish, hcnt, hloop⟩ | ⟨hidle, hloop⟩⟩ := opDsteps_eq_decodeLoop 31
    (s := { s with raw := BitVec.ofNat 64 s.window, out := 0#32, cnt := 0#6, phase := .shift }) rfl rfl
  · refine ⟨u.delivered, ?_, rfl, hloop.symm⟩
    rw [opDecode, opLdraw_next hphase, thenAt_next_pos rfl, iterations, hu, thenAt_next_pos hfinish,
      opFinal_next hfinish hcnt]
  · refine ⟨u, ?_, hidle, hloop.symm⟩
    rw [opDecode, opLdraw_next hphase, thenAt_next_pos rfl, iterations, hu, thenAt_next_neg (by simp [hidle])]

/-- DECODE ends in IDLE. -/
theorem opDecode_phase (h : opDecode s = .next t) : t.phase = .idle := by
  by_cases hphase : s.phase = .load
  · obtain ⟨u, hu, hidle, -⟩ := opDecode_eq_decodeLoop hphase
    cases hu.symm.trans h
    exact hidle
  · rw [opDecode_outOfPhase hphase] at h
    cases h

theorem opXchgOrWait_cases (h : opXchgOrWait s = .next t) : t = s.handOver ∨ opXchg s = .next t := by
  unfold opXchgOrWait at h
  split at h
  · cases h; exact .inl rfl
  · exact .inr h

/-- A read ends in IDLE, at whichever operation it ends, or waits in EXCHANGE (R93, R121; log 13). -/
theorem opReadSequence_phase (h : opReadSequence s = .next t) : t.phase = .idle ∨ t.phase = .exchange := by
  rcases thenAt_cases h with ⟨u, -, -, hdecode⟩ | ⟨h, hload⟩
  · exact .inl (opDecode_phase hdecode)
  rcases thenAt_cases h with ⟨u, -, -, hvalid⟩ | ⟨h, hvalidate⟩
  · obtain ⟨-, -, ⟨-, rfl⟩ | ⟨-, rfl⟩⟩ := opValid_cases hvalid
    · exact .inl rfl
    · exact absurd rfl hload
  rcases thenAt_cases h with ⟨u, -, hexchange, hxchg⟩ | ⟨h, hexchange⟩
  · rcases opXchgOrWait_cases hxchg with rfl | hxchg
    · exact .inr hexchange
    · obtain ⟨-, ⟨op, rest, -, rfl⟩ | ⟨a, line, rest, -, -, -, rfl⟩⟩ := opXchg_cases hxchg
      · exact .inl rfl
      · exact absurd rfl hvalidate
  · obtain ⟨-, rfl⟩ := opEncode_cases h
    exact absurd rfl hexchange

/-- What PHASE may become, operation by operation of the sequencer. -/
theorem operation_phaseTransition {i : Instr} (hop : s.phase.operation = some i) (h : exec i s = .next t) :
    (s.phase, t.phase) ∈ phaseTransitions := by
  cases hphase : s.phase <;> rw [hphase] at hop <;> cases hop
  case build => obtain ⟨-, rfl⟩ := opEncode_cases h; simp [phaseTransitions]
  case exchange =>
    obtain ⟨-, ⟨op, rest, -, rfl⟩ | ⟨a, line, rest, -, -, -, rfl⟩⟩ := opXchg_cases h
    · simp [phaseTransitions]
    · simp [phaseTransitions]
  case validate => obtain ⟨-, -, ⟨-, rfl⟩ | ⟨-, rfl⟩⟩ := opValid_cases h <;> simp [phaseTransitions]
  case load => obtain ⟨-, rfl⟩ := opLdraw_cases h; simp [phaseTransitions]
  case shift =>
    obtain ⟨-, -, ⟨-, rfl⟩ | ⟨-, rfl⟩⟩ := opDstep_cases h
    · simp [phaseTransitions]
    · rw [State.shifted_phase]
      split <;> simp [phaseTransitions]
  case finish => obtain ⟨-, -, rfl⟩ := opFinal_cases h; simp [phaseTransitions]

/-- Settles O5: the operation of each phase, and where READ may end. -/
theorem noOtherPhaseTransition : Obligations.NoOtherPhaseTransition := by
  refine ⟨fun s t hcaller hbusy h => ?_, fun s t h => ?_⟩
  · cases hop : s.phase.operation with
    | some i => exact operation_phaseTransition hop (step_of_operation hcaller hop ▸ h)
    | none =>
      rw [step_of_no_operation hcaller hop, if_neg hbusy] at h
      cases h
  · obtain ⟨hphase, -, -, h⟩ := opRead_cases h
    exact ⟨hphase, opReadSequence_phase h⟩

/-! ### RESULT is written at the end of a read (spec/10_state.md R17) -/

/-- What one operation of a read does to RESULT: it runs during a read, and keeps RESULT or ends the read with an
outcome. -/
def KeepsResultOrEnds (u t : State) : Prop :=
  u.phase ≠ .idle ∧ (t.result = u.result ∨ (t.phase = .idle ∧ t.result.done = true))

theorem MicroStep.keepsResultOrEnds (h : MicroStep s t) : KeepsResultOrEnds s t := by
  cases h with
  | encode h =>
    obtain ⟨hphase, rfl⟩ := opEncode_cases h
    exact ⟨by simp [hphase], .inl rfl⟩
  | xchg h =>
    obtain ⟨hphase, ⟨op, rest, -, rfl⟩ | ⟨a, line, rest, -, -, -, rfl⟩⟩ := opXchg_cases h
    · exact ⟨by simp [hphase], .inr ⟨rfl, rfl⟩⟩
    · exact ⟨by simp [hphase], .inl rfl⟩
  | valid h =>
    obtain ⟨hphase, -, ⟨-, rfl⟩ | ⟨-, rfl⟩⟩ := opValid_cases h
    · exact ⟨by simp [hphase], .inr ⟨rfl, rfl⟩⟩
    · exact ⟨by simp [hphase], .inl rfl⟩
  | ldraw h =>
    obtain ⟨hphase, rfl⟩ := opLdraw_cases h
    exact ⟨by simp [hphase], .inl rfl⟩
  | dstep h =>
    obtain ⟨hphase, -, ⟨-, rfl⟩ | ⟨-, rfl⟩⟩ := opDstep_cases h
    · exact ⟨by simp [hphase], .inr ⟨rfl, rfl⟩⟩
    · exact ⟨by simp [hphase], .inl rfl⟩
  | final h =>
    obtain ⟨hphase, -, rfl⟩ := opFinal_cases h
    exact ⟨by simp [hphase], .inr ⟨rfl, rfl⟩⟩

/-- How an instruction stands with RESULT, which was `r`, where `busy` says that it runs in a read: it is in no read
unless `busy`, and RESULT is `r` or the read has ended. -/
def ResultPending (r : Result) (busy : Prop) (u : State) : Prop :=
  (u.phase ≠ .idle → busy) ∧ (u.result = r ∨ (u.phase = .idle ∧ u.result.done = true ∧ busy))

theorem ResultPending.of_operation {r : Result} {busy : Prop} {u : State} (hu : ResultPending r busy u)
    (h : KeepsResultOrEnds u t) : ResultPending r busy t := by
  obtain ⟨hbusy, hresult | ⟨hidle, -, -⟩⟩ := hu <;> obtain ⟨hphase, hkeep⟩ := h
  · refine ⟨fun _ => hbusy hphase, ?_⟩
    rcases hkeep with hkeep | ⟨hidle, hdone⟩
    · exact .inl (hkeep.trans hresult)
    · exact .inr ⟨hidle, hdone, hbusy hphase⟩
  · exact absurd hidle hphase

/-- Settles O6: no instruction of a read writes RESULT but the one that ends it, and no other writes RESULT at all. -/
theorem resultWrittenOnlyAtEndOfRead : Obligations.ResultWrittenOnlyAtEndOfRead := by
  intro i s t h hne
  have hpending : ResultPending s.result (s.phase ≠ .idle ∨ i = .read) t :=
    exec_keeps_of_microStep (P := ResultPending s.result (s.phase ≠ .idle ∨ i = .read))
      (fun _ _ hu hv => hu.of_operation hv.keepsResultOrEnds) (fun _ _ _ => ⟨.inl, .inl rfl⟩) (fun _ hu _ => hu)
      (fun hread _ _ _ => ⟨fun _ => .inr hread, .inl rfl⟩) (fun _ => ⟨.inl, .inl rfl⟩)
      (fun _ _ => ⟨.inl, .inl rfl⟩) ⟨.inl, .inl rfl⟩ h
  exact hpending.2.resolve_left hne

/-! ### The configuration is fixed during a read (spec/10_state.md R20 to R22) -/

/-- The inputs and constants a read runs under: the Clock Profile and N, DEBUG, BUF_CAP. -/
def State.configuration (s : State) : Nat × Nat × Nat × Bool × Option Nat :=
  (s.clockHz, s.resetUs, s.n, s.debug, s.bufCap)

theorem MicroStep.configuration (h : MicroStep s t) : t.configuration = s.configuration := by
  cases h with
  | encode h => obtain ⟨-, rfl⟩ := opEncode_cases h; rfl
  | xchg h => obtain ⟨-, ⟨op, rest, -, rfl⟩ | ⟨a, line, rest, -, -, -, rfl⟩⟩ := opXchg_cases h <;> rfl
  | valid h => obtain ⟨-, -, ⟨-, rfl⟩ | ⟨-, rfl⟩⟩ := opValid_cases h <;> rfl
  | ldraw h => obtain ⟨-, rfl⟩ := opLdraw_cases h; rfl
  | dstep h => obtain ⟨-, -, ⟨-, rfl⟩ | ⟨-, rfl⟩⟩ := opDstep_cases h <;> rfl
  | final h => obtain ⟨-, -, rfl⟩ := opFinal_cases h; rfl

theorem execIdleb_cases {c r : Nat} (h : execIdleb c r s = .next t) :
    s.phase = .idle ∧ legalProfile c r = true ∧
      t = { s with clockHz := c, resetUs := r, n := idleBytes c r } := by
  unfold execIdleb at h
  split at h
  · cases h
  · rename_i hphase
    split at h
    · cases h; exact ⟨not_not.mp hphase, ‹_›, rfl⟩
    · cases h

/-- No instruction but IDLEB writes the configuration. -/
theorem exec_configuration {i : Instr} (hi : ∀ c r, i ≠ .idleb c r) (h : exec i s = .next t) :
    t.configuration = s.configuration := by
  have keep {u v : State} (hu : u.configuration = s.configuration) (hv : MicroStep u v) :
      v.configuration = s.configuration := hv.configuration.trans hu
  cases i with
  | idleb c r => exact absurd rfl (hi c r)
  | encode => exact keep rfl (.encode h)
  | xchg => exact keep rfl (.xchg h)
  | valid => exact keep rfl (.valid h)
  | ldraw => exact keep rfl (.ldraw h)
  | dstep => exact keep rfl (.dstep h)
  | final => exact keep rfl (.final h)
  | decode =>
    exact opDecode_keeps (fun _ _ hu hv => keep hu (.ldraw hv)) (fun _ _ hu hv => keep hu (.dstep hv))
      (fun _ _ hu hv => keep hu (.final hv)) rfl h
  | read =>
    obtain ⟨-, -, -, h⟩ := opRead_cases h
    exact opReadSequence_keeps (s := s.accept) (fun _ _ hu hv => keep hu (.encode hv)) (fun _ hu _ _ => hu)
      (fun _ _ hu hv => keep hu (.xchg hv)) (fun _ _ hu hv => keep hu (.valid hv))
      (fun _ _ hu hv => keep hu (.ldraw hv)) (fun _ _ hu hv => keep hu (.dstep hv))
      (fun _ _ hu hv => keep hu (.final hv)) rfl h
  | scale v => cases h; rfl
  | txidle => obtain ⟨-, -, -, -, rfl⟩ := opSend_cases h; rfl
  | txclk => obtain ⟨-, -, -, -, rfl⟩ := opSend_cases h; rfl
  | rxnotrdy => exact keep rfl (.valid (opNotReady_cases h))
  | pair0 => exact keep rfl (.dstep (opPair_cases h).2.2)
  | pair1 => exact keep rfl (.dstep (opPair_cases h).2.2)
  | pairx01 => exact keep rfl (.dstep (opPair_cases h).2.2)
  | pairx10 => exact keep rfl (.dstep (opPair_cases h).2.2)

/-- Settles O7: IDLEB writes the Clock Profile and N together in IDLE; no other instruction writes the configuration. -/
theorem configurationFixedDuringRead : Obligations.ConfigurationFixedDuringRead := by
  intro i s t h
  by_cases hi : ∃ c r, i = .idleb c r
  · obtain ⟨c, r, rfl⟩ := hi
    obtain ⟨hphase, -, rfl⟩ := execIdleb_cases h
    exact ⟨rfl, rfl, fun hfixed => hfixed.elim (absurd hphase) fun hno => absurd rfl (hno c r), fun _ => rfl⟩
  · push Not at hi
    have hconf := exec_configuration hi h
    simp only [State.configuration, Prod.mk.injEq] at hconf
    obtain ⟨hclock, hreset, hn, hdebug, hcap⟩ := hconf
    exact ⟨hdebug, hcap, fun _ => ⟨hclock, hreset, hn⟩, fun hderived => by rw [hn, hclock, hreset, hderived]⟩

/-! ### READ's outcome is Read(A) (spec/44_read_and_scale.md R120, spec/10_state.md R25) -/

/-- A byte appended to a bit vector is its next base-256 digit. -/
theorem toNat_append_byte {w : Nat} (x : BitVec w) (b : Byte) : (x ++ b).toNat = x.toNat * 256 + b.toNat := by
  rw [BitVec.toNat_append, ← Nat.shiftLeft_add_eq_or_of_lt b.isLt, Nat.shiftLeft_eq]

/-- The window read as a number is the window as 48 bits (R56). -/
theorem State.toNat_windowBits (s : State) : s.windowBits.toNat = s.window := by
  simp [State.windowBits, windowOf, toNat_append_byte, State.window, State.bufBytes, dataBytes, List.range_succ, beNat]

/-- DECODE from LOAD ends in IDLE with Decode48 of the window (R103). -/
theorem opDecode_eq_decode48 (hphase : s.phase = .load) :
    ∃ t, opDecode s = .next t ∧ t.phase = .idle ∧ t.result = decode48 s.windowBits := by
  rw [decode48, ← BitVec.ofNat_toNat, State.toNat_windowBits]
  exact opDecode_eq_decodeLoop hphase

theorem opValid_notReady (hphase : s.phase = .validate) (hn : s.n ≠ 0) (hready : s.bufByte (s.n - 1) = 0xFF#8) :
    opValid s = .next (s.raise .notReady) := by
  simp [opValid, hphase, State.readyByte?, hn, hready, sentinel, sentinelByte]

theorem opValid_ready (hphase : s.phase = .validate) (hn : s.n ≠ 0) (hready : s.bufByte (s.n - 1) ≠ 0xFF#8) :
    opValid s = .next { s with phase := .load } := by
  simp [opValid, hphase, State.readyByte?, hn, hready, sentinel, sentinelByte]

/-- From VALIDATE on, the received bytes alone decide how the read ends. -/
theorem validThenDecode_eq_frameOutcome {m : Memory} {r : List Byte} (hphase : s.phase = .validate) (hn : s.n ≠ 0)
    (hbuf : s.buf = Memory.writeBytes m 0 r) (hr : r.length = s.bufLen) :
    ∃ t, thenAt (opValid s) .load opDecode = .next t ∧ t.phase = .idle ∧ t.result = frameOutcome s.n r := by
  have hbyte (i : Nat) (hi : i < s.n + 6) : s.bufByte i = r.getD i 0#8 := by
    have hlt : i < r.length := hr ▸ hi
    rw [List.getD_eq_getElem _ _ hlt]
    exact State.bufByte_of_written hbuf (List.getElem?_eq_getElem hlt)
  have hready := hbyte (s.n - 1) (by omega)
  by_cases hff : r.getD (s.n - 1) 0#8 = 0xFF#8
  · refine ⟨s.raise .notReady, ?_, rfl, (if_pos hff).symm⟩
    rw [opValid_notReady hphase hn (hready.trans hff), thenAt_next_neg (by simp)]
  · have hwindow : s.windowBits = windowOf fun k => r.getD (s.n + k) 0#8 := by
      simp only [State.windowBits, windowOf]
      rw [hbyte, hbyte, hbyte, hbyte, hbyte, hbyte] <;> omega
    rw [opValid_ready hphase hn (hready ▸ hff), thenAt_next_pos rfl, frameOutcome, if_neg hff, ← hwindow]
    exact opDecode_eq_decode48 (s := { s with phase := .load }) rfl

theorem Answer.eq_fail_of_line? {a : Answer} (h : a.line? = none) : ∃ op, a = .fail op := by
  cases a with
  | fail op => exact ⟨op, rfl⟩
  | bytes r => cases h
  | bits line => cases h

/-- Read(A) of an answer that is no failure, through the raw bits it puts on the line (log 25). -/
theorem readOutcome_of_line? {a : Answer} {line : List Bool} (h : a.line? = some line) (n : Nat) :
    readOutcome n a = frameOutcome n (packBits line) := by
  cases a with
  | fail op => cases h
  | bytes r => cases h; rw [packBits_serialImage]; rfl
  | bits l => cases h; rfl

theorem Answer.length_line? {a : Answer} {line : List Bool} {n : Nat} (h : a.line? = some line)
    (hfit : a.fitsFrame n) : line.length = unitBits * (n + dataBytes) := by
  cases a with
  | fail op => cases h
  | bytes r => cases h; rw [length_serialImage, show r.length = n + 6 from hfit, dataBytes]
  | bits l => cases h; exact hfit

/-- The operations of an accepted read end in IDLE with Read(A) (R120, R121). -/
theorem opReadSequence_eq_readOutcome {a : Answer} {rest : List Answer} (hphase : s.phase = .build) (hn : s.n ≠ 0)
    (hanswers : s.answers = a :: rest) (hfit : a.fitsFrame s.n) :
    ∃ t, opReadSequence s = .next t ∧ t.phase = .idle ∧ t.result = readOutcome s.n a := by
  have hwait : opXchgOrWait s.encoded = opXchg s.encoded := if_neg (by simp [hanswers])
  rw [opReadSequence, opEncode_next hphase, thenAt_next_pos (State.encoded_phase s), hwait]
  cases hline : a.line? with
  | none =>
    obtain ⟨op, rfl⟩ := Answer.eq_fail_of_line? hline
    rw [opXchg_fail (State.encoded_phase s) hanswers, thenAt_next_neg (by simp), thenAt_next_neg (by simp)]
    exact ⟨_, rfl, rfl, rfl⟩
  | some line =>
    have hlength : line.length = unitBits * s.bufLen := Answer.length_line? hline hfit
    rw [opXchg_line (State.encoded_phase s) hanswers hline hlength, thenAt_next_pos (State.received_phase _ line),
      readOutcome_of_line? hline]
    exact validThenDecode_eq_frameOutcome rfl hn rfl (length_packBits hlength)

/-- READ from a state that accepts it ends in IDLE with Read(A). -/
theorem exec_read_eq_readOutcome {a : Answer} {rest : List Answer} (haccepts : s.acceptsRead)
    (hanswers : s.answers = a :: rest) (hfit : a.fitsFrame s.n) :
    ∃ t, exec .read s = .next t ∧ t.phase = .idle ∧ t.result = readOutcome s.n a := by
  obtain ⟨hphase, hlegal, hfits, hn⟩ := haccepts
  have hpos : s.n ≠ 0 := by
    have := idleBytes_pos hlegal
    omega
  have hread : exec .read s = opReadSequence s.accept := by
    simp [exec, execRead, opRead, hphase, hlegal, hfits]
  rw [hread]
  exact opReadSequence_eq_readOutcome (s := s.accept) rfl hpos hanswers hfit

/-- Settles O46: Read(A) has no argument but N, which the Clock Profile determines, and the answer. -/
theorem readIndependentOfEarlierReads : Obligations.ReadIndependentOfEarlierReads := by
  intro s₁ s₂ a rest₁ rest₂ haccepts₁ haccepts₂ hclock hreset hfit hanswers₁ hanswers₂
  have hn : s₁.n = s₂.n := by
    obtain ⟨-, -, -, hn₁⟩ := haccepts₁
    obtain ⟨-, -, -, hn₂⟩ := haccepts₂
    rw [hn₁, hn₂, hclock, hreset]
  obtain ⟨t₁, hread₁, hidle₁, hresult₁⟩ := exec_read_eq_readOutcome haccepts₁ hanswers₁ hfit
  obtain ⟨t₂, hread₂, hidle₂, hresult₂⟩ := exec_read_eq_readOutcome haccepts₂ hanswers₂ (hn ▸ hfit)
  exact ⟨t₁, t₂, hread₁, hread₂, hidle₁, hidle₂, by rw [hresult₁, hresult₂, hn]⟩

end Sys2Proof.Machine

/-! ### Byte order (spec/20_memory.md R32) -/

namespace Sys2Proof.Machine

open Sys2Proof.Laws.EncodeHead (length_beBytes)

variable {s : State}

/-- One more byte at the end is one more base-256 digit. -/
theorem beNat_append_singleton (bytes : List Byte) (b : Byte) : beNat (bytes ++ [b]) = beNat bytes * 256 + b.toNat := by
  simp [beNat]

theorem State.bufBytes_succ (s : State) (a k : Nat) :
    s.bufBytes a (k + 1) = s.bufBytes a k ++ [s.bufByte (a + k)] := by
  simp [State.bufBytes, List.range_succ]

/-- The number read from a run of BUF: the byte at its lowest address has the highest weight. -/
theorem State.beNat_bufBytes (s : State) (a k : Nat) :
    beNat (s.bufBytes a k) = ∑ j ∈ Finset.range k, (s.bufByte (a + j)).toNat * 2 ^ (8 * (k - 1 - j)) := by
  induction k with
  | zero => rfl
  | succ k ih =>
    have hweight (j : Nat) (hj : j < k) : 2 ^ (8 * (k + 1 - 1 - j)) = 2 ^ (8 * (k - 1 - j)) * 256 := by
      rw [show 8 * (k + 1 - 1 - j) = 8 * (k - 1 - j) + 8 by omega, Nat.pow_add]
    rw [State.bufBytes_succ, beNat_append_singleton, ih, Finset.sum_range_succ, Finset.sum_mul]
    congr 1
    · refine Finset.sum_congr rfl fun j hj => ?_
      rw [hweight j (Finset.mem_range.mp hj), Nat.mul_assoc]
    · simp

/-- Byte `j` of a number written in `k` bytes: the digit with `k − 1 − j` digits below it. -/
theorem getElem?_beBytes {k j : Nat} (v : Nat) (hj : j < k) :
    (beBytes k v)[j]? = some (BitVec.ofNat 8 (v / 2 ^ (8 * (k - 1 - j)))) := by
  induction k generalizing v with
  | zero => omega
  | succ k ih =>
    rw [beBytes]
    rcases Nat.lt_succ_iff_lt_or_eq.mp hj with hlt | rfl
    · have hdigits : 256 * 2 ^ (8 * (k - 1 - j)) = 2 ^ (8 * (k + 1 - 1 - j)) := by
        rw [show 8 * (k + 1 - 1 - j) = 8 + 8 * (k - 1 - j) by omega, Nat.pow_add]
      rw [List.getElem?_append_left (by rwa [length_beBytes]), ih _ hlt, Nat.div_div_eq_div_mul, hdigits]
    · simp [length_beBytes]

/-- A byte inside a run written anywhere in BUF. -/
theorem State.bufByte_writeBytes_inside (s : State) (a : Nat) {bs : List Byte} {j : Nat} {b : Byte}
    (hb : bs[j]? = some b) : { s with buf := Memory.writeBytes s.buf a bs }.bufByte (a + j) = b := by
  obtain ⟨hj, -⟩ := List.getElem?_eq_some_iff.mp hb
  refine State.bufByte_of_listed ?_
  rw [Memory.read?_writeBytes, if_pos ⟨by omega, by omega⟩, Nat.add_sub_cancel_left, hb]

/-- A byte outside a written run reads as before, listed or not. -/
theorem State.bufByte_writeBytes_outside (s : State) {a x : Nat} {bs : List Byte} (hx : x < a ∨ a + bs.length ≤ x) :
    { s with buf := Memory.writeBytes s.buf a bs }.bufByte x = s.bufByte x := by
  simp only [State.bufByte]
  rw [Memory.read?_writeBytes, if_neg (by omega)]

/-- Settles O17: a run read or written is its big-endian digits, one to an address, and a write stays in its run. -/
theorem memReadMemWriteBigEndian : Obligations.MemReadMemWriteBigEndian := by
  intro s a k v hrange
  refine ⟨?_, fun j hj => ?_, fun x hx => ?_⟩
  · rw [State.memRead, if_pos hrange, State.beNat_bufBytes]
  · exact s.bufByte_writeBytes_inside a (getElem?_beBytes v hj)
  · exact s.bufByte_writeBytes_outside (by rwa [length_beBytes])

/-! ### The received frame in BUF (spec/20_memory.md R34, spec/30_encoding.md R54) -/

theorem Answer.bytes?_of_line? {a : Answer} {line : List Bool} (h : a.line? = some line) :
    a.bytes? = some (packBits line) := by
  cases a with
  | fail op => cases h
  | bytes r => cases h; rw [packBits_serialImage]; rfl
  | bits l => cases h; rfl

/-- Where BUF holds `k` bytes packed from `bits`, raw bit j of `bits` is bit 7 − (j mod 8) of BUF[floor(j / 8)]. -/
theorem State.getElem?_line_of_written {m : Memory} {bits : List Bool} {k j : Nat}
    (hbuf : s.buf = Memory.writeBytes m 0 (packBits bits)) (hbits : bits.length = unitBits * k) (hj : j < 8 * k) :
    bits[j]? = some ((s.bufByte (j / 8)).getLsbD (7 - j % 8)) := by
  have hlength := length_packBits hbits
  have hbyte : (packBits bits)[j / 8]? = some (packBits bits)[j / 8] := List.getElem?_eq_getElem (by omega)
  calc bits[j]?
      = (serialImage (packBits bits))[j]? := by rw [serialImage_packBits hbits]
    _ = ((packBits bits)[j / 8]?).map fun b => b.getLsbD (7 - j % 8) := serialImage_getElem? _ (by omega)
    _ = some ((s.bufByte (j / 8)).getLsbD (7 - j % 8)) := by
      rw [hbyte, State.bufByte_of_written hbuf hbyte, Option.map_some]

/-- Where BUF holds `k` bytes packed from the line, its first `k` bytes are those. -/
theorem State.bufBytes_of_written_line {m : Memory} {line : List Bool} {k : Nat}
    (hbuf : s.buf = Memory.writeBytes m 0 (packBits line)) (hline : line.length = unitBits * k) :
    s.bufBytes 0 k = packBits line := by
  have hlength := length_packBits hline
  rw [State.bufBytes_of_written hbuf 0 k (by omega), List.drop_zero, List.take_of_length_le hlength.le]

/-- Settles O26: XCHG packs the answer's raw bits, in either form, into BUF from address 0 on. -/
theorem xchgStoresReceivedBits : Obligations.XchgStoresReceivedBits := by
  intro s a line rest hphase hanswers hline hfit
  have hlength : line.length = unitBits * s.bufLen := Answer.length_line? hline hfit
  have hbuf := State.received_buf { s.handOver with answers := rest } line
  have hbytes := State.bufBytes_of_written_line hbuf hlength
  refine ⟨_, opXchg_line hphase hanswers hline hlength, rfl, rfl, hlength,
    fun j hj => State.getElem?_line_of_written hbuf hlength hj, fun i hi => ?_, ?_, ?_⟩
  · exact s.bufByte_writeBytes_outside (.inr (by rw [length_packBits hlength, Nat.zero_add]; exact hi))
  · rw [Answer.bytes?_of_line? hline]
    exact congrArg some hbytes
  · rw [show s.n + 6 = s.bufLen from rfl, hbytes]
    rfl

end Sys2Proof.Machine

/-! ### The codes of the instructions (spec/30_encoding.md R52, R55, R57, R62; log 10) -/

namespace Sys2Proof.Machine

open Sys2Proof.Laws.EncodeHead (length_beBytes)

/-- A number written in `n` bytes reads back, the part beyond them lost (R32). -/
theorem beNat_beBytes (n v : Nat) : beNat (beBytes n v) = v % 256 ^ n := by
  induction n generalizing v with
  | zero => rw [Nat.pow_zero, Nat.mod_one]; rfl
  | succ n ih =>
    rw [beBytes, beNat_append_singleton, ih, BitVec.toNat_ofNat, show 256 ^ (n + 1) = 256 * 256 ^ n from Nat.pow_succ',
      Nat.mod_mul]
    omega

theorem beNat_beBytes_of_lt {n v : Nat} (h : v < 256 ^ n) : beNat (beBytes n v) = v := by
  rw [beNat_beBytes, Nat.mod_eq_of_lt h]

/-- Bytes read as a number are written again by it (R32). -/
theorem beBytes_beNat {bytes : List Byte} {n : Nat} (h : bytes.length = n) : beBytes n (beNat bytes) = bytes := by
  subst h
  induction bytes using List.reverseRecOn with
  | nil => rfl
  | append_singleton bytes b ih =>
    have hb := b.isLt
    have hlow : BitVec.ofNat 8 (beNat bytes * 256 + b.toNat) = b := by
      apply BitVec.eq_of_toNat_eq
      rw [BitVec.toNat_ofNat]
      omega
    rw [List.length_append, List.length_singleton, beBytes, beNat_append_singleton, hlow,
      show (beNat bytes * 256 + b.toNat) / 256 = beNat bytes by omega, ih]

/-- A byte is known by its number. -/
theorem byte_eq_ofNat {b : Byte} {v : Nat} (h : b.toNat = v) : b = BitVec.ofNat 8 v := by
  rw [← h, BitVec.ofNat_toNat, BitVec.setWidth_eq]

/-- A whole code is an instruction when its bytes are that and nothing more. -/
theorem decode_eq_instr_iff {c : Code} {i : Instr} {rest : List Byte} :
    decode c = .instr i rest ↔ rest = [] ∧ decodeBytes c.format c.bytes = .instr i [] := by
  unfold decode
  rcases hbytes : decodeBytes c.format c.bytes with ⟨j, _ | ⟨b, leftover⟩⟩ | e
  · simp [and_comm, eq_comm]
  · simp
  · simp

theorem decode_eq_reject {c : Code} {e : DecodeError} (h : decodeBytes c.format c.bytes = .reject e) :
    decode c = .reject e := by
  simp only [decode, h]

/-! #### From the instruction to the code and back -/

/-- IDLEB's two operands are read from the bytes they are written in (log 10). -/
theorem decodeIdleb_beBytes {clockHz resetUs : Nat} (hclock : clockHz < 256 ^ 8) (hreset : resetUs < 256 ^ 8) :
    decodeIdleb (beBytes 8 clockHz ++ beBytes 8 resetUs) = .instr (.idleb clockHz resetUs) [] := by
  rw [decodeIdleb, if_neg (by simp [length_beBytes]), List.take_left' (length_beBytes 8 clockHz),
    List.drop_left' (length_beBytes 8 clockHz), List.take_of_length_le (length_beBytes 8 resetUs).le,
    List.drop_of_length_le (by simp [length_beBytes]), beNat_beBytes_of_lt hclock, beNat_beBytes_of_lt hreset]

/-- SCALE's operand is read from the bytes it is written in (log 10). -/
theorem decodeScale_beBytes (v : SampleWord) : decodeScale (beBytes 4 v.toNat) = .instr (.scale v) [] := by
  rw [decodeScale, if_neg (by simp [length_beBytes]), List.take_of_length_le (length_beBytes 4 _).le,
    List.drop_of_length_le (length_beBytes 4 _).le, beNat_beBytes_of_lt v.isLt, BitVec.ofNat_toNat,
    BitVec.setWidth_eq]

/-- Each operand of a legal profile fits a 64-bit word: it is at most the product (R73). -/
theorem operands_lt_of_wellFormed {clockHz resetUs : Nat} (h : (Instr.idleb clockHz resetUs).wellFormed = true) :
    clockHz < 256 ^ 8 ∧ resetUs < 256 ^ 8 := by
  obtain ⟨hclock, hreset, hproduct⟩ := (legalProfile_iff clockHz resetUs).mp h
  have hclock_le : clockHz ≤ clockHz * resetUs := Nat.le_mul_of_pos_right clockHz hreset
  have hreset_le : resetUs ≤ clockHz * resetUs := Nat.le_mul_of_pos_left resetUs hclock
  constructor <;> omega

/-- The tables are read as they are written, format by format; the operands need their range. -/
theorem decodeBytes_encode {i : Instr} (h : i.wellFormed = true) :
    decodeBytes (encode i).format (encode i).bytes = .instr i [] := by
  cases i with
  | idleb clockHz resetUs =>
    obtain ⟨hclock, hreset⟩ := operands_lt_of_wellFormed h
    exact decodeIdleb_beBytes hclock hreset
  | scale v => exact decodeScale_beBytes v
  | encode | xchg | valid | ldraw | dstep | final | decode | read => rfl
  | txidle | txclk | rxnotrdy => rfl
  | pair0 | pair1 | pairx01 | pairx10 => rfl

/-- Settles O10: decoding undoes encoding, operand by operand. -/
theorem decodeOfEncode : Obligations.DecodeOfEncode :=
  fun _ h => decode_eq_instr_iff.mpr ⟨rfl, decodeBytes_encode h⟩

/-- Settles O12: each of the words is what the encoder writes for its instruction. -/
theorem specWordsDecode : Obligations.SpecWordsDecode := by
  have hscale : encode (.scale 0x00800000#32) = ⟨.op4, [0x09#8, 0x00#8, 0x80#8, 0x00#8, 0x00#8]⟩ := rfl
  exact ⟨decodeOfEncode .encode rfl, decodeOfEncode .dstep rfl, decodeOfEncode .read rfl,
    hscale ▸ decodeOfEncode (.scale 0x00800000#32) rfl, decodeOfEncode .txclk rfl, decodeOfEncode .rxnotrdy rfl,
    decodeOfEncode .pairx01 rfl, decodeOfEncode .pairx10 rfl⟩

/-! #### From the code to the instruction and back -/

/-- A row of the tables without operands: the byte is the number, and no byte follows. -/
theorem encode_of_bareRow {f : Format} {b : Byte} {number : Nat} {row i : Instr} {rest : List Byte}
    (hb : b.toNat = number) (hrow : encode row = ⟨f, [BitVec.ofNat 8 number]⟩)
    (h : Decoded.instr row rest = .instr i []) : encode i = ⟨f, b :: rest⟩ := by
  cases h
  rw [hrow, byte_eq_ofNat hb]

theorem encode_of_decodeIdleb {i : Instr} {bytes : List Byte} (h : decodeIdleb bytes = .instr i []) :
    encode i = ⟨.op4, 0x00#8 :: bytes⟩ := by
  unfold decodeIdleb at h
  split at h
  · cases h
  · rename_i hlength
    simp only [Decoded.instr.injEq, List.drop_eq_nil_iff] at h
    obtain ⟨rfl, hle⟩ := h
    have hfirst : (bytes.take 8).length = 8 := by simp; omega
    have hsecond : (bytes.drop 8).length = 8 := by simp; omega
    rw [encode, List.take_of_length_le hsecond.le, beBytes_beNat hfirst, beBytes_beNat hsecond,
      List.take_append_drop]

theorem encode_of_decodeScale {i : Instr} {bytes : List Byte} (h : decodeScale bytes = .instr i []) :
    encode i = ⟨.op4, 0x09#8 :: bytes⟩ := by
  unfold decodeScale at h
  split at h
  · cases h
  · rename_i hlength
    simp only [Decoded.instr.injEq, List.drop_eq_nil_iff] at h
    obtain ⟨rfl, hle⟩ := h
    have hfour : bytes.length = 4 := by omega
    have hlt : beNat bytes < 2 ^ 32 := by
      have := beNat_lt bytes
      rwa [hfour] at this
    rw [encode, List.take_of_length_le hle, BitVec.toNat_ofNat, Nat.mod_eq_of_lt hlt,
      beBytes_beNat hfour]

/-- R62's table: the number names the operation, the bytes after it are its operands. -/
theorem encode_of_decodeOp {b : Byte} {rest : List Byte} {i : Instr} (h : decodeOp b.toNat rest = .instr i []) :
    encode i = ⟨.op4, b :: rest⟩ := by
  unfold decodeOp at h
  split at h
  case h_1 hb => rw [byte_eq_ofNat hb]; exact encode_of_decodeIdleb h
  case h_2 hb | h_3 hb | h_4 hb | h_5 hb | h_6 hb | h_7 hb | h_8 hb | h_9 hb => exact encode_of_bareRow hb rfl h
  case h_10 hb => rw [byte_eq_ofNat hb]; exact encode_of_decodeScale h
  case h_11 => split at h <;> cases h

/-- R52's table. -/
theorem encode_of_decodeTx {b : Byte} {rest : List Byte} {i : Instr} (h : decodeTx b.toNat rest = .instr i []) :
    encode i = ⟨.txbyte, b :: rest⟩ := by
  unfold decodeTx at h
  split at h
  case h_1 hb | h_2 hb => exact encode_of_bareRow hb rfl h
  case h_3 => cases h

/-- R55's table. -/
theorem encode_of_decodeReady {b : Byte} {rest : List Byte} {i : Instr}
    (h : decodeReady b.toNat rest = .instr i []) : encode i = ⟨.rxready, b :: rest⟩ := by
  unfold decodeReady at h
  split at h
  case h_1 hb => exact encode_of_bareRow hb rfl h
  case h_2 => cases h

/-- R57's table. -/
theorem encode_of_decodePair {b : Byte} {rest : List Byte} {i : Instr} (h : decodePair b.toNat rest = .instr i []) :
    encode i = ⟨.pair, b :: rest⟩ := by
  unfold decodePair at h
  split at h
  case h_1 hb | h_2 hb | h_3 hb | h_4 hb => exact encode_of_bareRow hb rfl h
  case h_5 => cases h

theorem encode_of_decodeBytes {f : Format} {bytes : List Byte} {i : Instr} (h : decodeBytes f bytes = .instr i []) :
    encode i = ⟨f, bytes⟩ := by
  cases bytes with
  | nil => cases h
  | cons b rest =>
    cases f with
    | op4 => exact encode_of_decodeOp h
    | txbyte => exact encode_of_decodeTx h
    | rxready => exact encode_of_decodeReady h
    | pair => exact encode_of_decodePair h

/-- Settles O11: encoding undoes decoding, table by table. -/
theorem encodeOfDecode : Obligations.EncodeOfDecode := by
  intro c i rest h
  obtain ⟨hrest, hbytes⟩ := decode_eq_instr_iff.mp h
  exact ⟨hrest, encode_of_decodeBytes hbytes⟩

/-! #### Numbers that are no instruction -/

theorem decodeOp_unassigned {op : Nat} (h10 : 10 ≤ op) (h16 : op < 16) (rest : List Byte) :
    decodeOp op rest = .reject .unassignedOp := by
  unfold decodeOp
  split
  case h_11 => rw [if_pos h16]
  all_goals omega

theorem decodeTx_notTransmitted {b : Byte} (h00 : b ≠ 0x00#8) (hAA : b ≠ 0xAA#8) (rest : List Byte) :
    decodeTx b.toNat rest = .reject .notTransmitted := by
  unfold decodeTx
  split
  case h_1 hb => exact absurd (byte_eq_ofNat hb) h00
  case h_2 hb => exact absurd (byte_eq_ofNat hb) hAA
  case h_3 => rfl

/-- Settles O13: the decoder rejects the number, so the step refuses it, whatever follows. -/
theorem unassignedNumbersRefused : Obligations.UnassignedNumbersRefused := by
  intro s b bytes queue
  refine ⟨fun h10 h16 hcaller => ?_, fun h00 hAA hcaller => ?_⟩
  · exact step_issue_of_decode_reject hcaller (decode_eq_reject (decodeOp_unassigned h10 h16 bytes))
  · exact step_issue_of_decode_reject hcaller (decode_eq_reject (decodeTx_notTransmitted h00 hAA bytes))

end Sys2Proof.Machine

/-! ### The line (spec/30_encoding.md R51 to R54, R60) -/

namespace Sys2Proof.Machine

variable {s : State}

/-- What the frame of `n` idle bytes is on the line: 8n raw bits of 0, then 24 times 1, 0 (R51, R53). -/
theorem serialImage_frame (n : Nat) :
    serialImage (frame n) = List.replicate (8 * n) false ++ (List.replicate 24 [true, false]).flatten := by
  have hidle : serialImage (List.replicate n idleByte) = List.replicate (8 * n) false := by
    induction n with
    | zero => rfl
    | succ n ih =>
      rw [List.replicate_succ, serialImage_cons, ih, Nat.mul_succ, Nat.add_comm, List.replicate_add]
      rfl
  rw [frame, serialImage_append, hidle]
  rfl

/-- After ENCODE the whole of BUF is the frame (R80). -/
theorem State.bufBytes_encoded (s : State) : s.encoded.bufBytes 0 s.bufLen = frame s.n := by
  have hlength : (frame s.n).length = s.bufLen := length_frame s.n
  rw [State.bufBytes_of_written (State.encoded_buf s) 0 _ (by omega), List.drop_zero,
    List.take_of_length_le hlength.le]

/-- What ENCODE and then a handover put on the line (R53). -/
theorem State.serial_handOver_encoded (s : State) : s.encoded.handOver.serial = serialImage (frame s.n) :=
  congrArg serialImage s.bufBytes_encoded

/-- Raw bit j of the frame's serial image is bit 7 − (j mod 8) of BUF[floor(j / 8)] after ENCODE (R53). -/
theorem State.getElem?_serialImage_frame (s : State) {j : Nat} (hj : j < 8 * s.bufLen) :
    (serialImage (frame s.n))[j]? = some ((s.encoded.bufByte (j / 8)).getLsbD (7 - j % 8)) := by
  have hlength : (serialImage (frame s.n)).length = unitBits * s.bufLen := by
    rw [length_serialImage, length_frame, State.bufLen]
  have hbuf : s.encoded.buf = Memory.writeBytes s.buf 0 (packBits (serialImage (frame s.n))) := by
    rw [packBits_serialImage, State.encoded_buf]
  exact State.getElem?_line_of_written hbuf hlength hj

/-- Settles O29: both ways XCHG can end leave the line as the handover put it, or a beginning of that. -/
theorem serialImageOfTheFrame : Obligations.SerialImageOfTheFrame := by
  intro s a rest hphase hanswers hfit
  refine ⟨s.encoded, ?_⟩
  rw [← serialImage_frame]
  cases hline : a.line? with
  | none =>
    obtain ⟨op, rfl⟩ := Answer.eq_fail_of_line? hline
    refine ⟨_, opEncode_next hphase, opXchg_fail (State.encoded_phase s) hanswers, fun hno => absurd rfl (hno op),
      fun _ _ => ?_⟩
    rw [← State.serial_handOver_encoded]
    exact List.take_prefix _ _
  | some line =>
    have hlength : line.length = unitBits * s.encoded.bufLen := Answer.length_line? hline hfit
    refine ⟨_, opEncode_next hphase, opXchg_line (State.encoded_phase s) hanswers hline hlength,
      fun _ => ⟨s.serial_handOver_encoded, fun j hj => ?_⟩, ?_⟩
    · exact (congrArg (·[j]?) s.serial_handOver_encoded).trans (s.getElem?_serialImage_frame hj)
    · rintro op rfl
      cases hline

/-- The outcome looks at no received byte before the READY byte (R60). -/
theorem frameOutcome_congr {n : Nat} {r r' : List Byte} (h : ∀ i, n - 1 ≤ i → r[i]? = r'[i]?) :
    frameOutcome n r = frameOutcome n r' := by
  have hbyte (i : Nat) (hi : n - 1 ≤ i) : r.getD i 0#8 = r'.getD i 0#8 := by
    rw [List.getD_eq_getElem?_getD, List.getD_eq_getElem?_getD, h i hi]
  have hwindow : (fun k => r.getD (n + k) 0#8) = fun k => r'.getD (n + k) 0#8 :=
    funext fun k => hbyte (n + k) (by omega)
  rw [frameOutcome, frameOutcome, hbyte (n - 1) le_rfl, hwindow]

theorem readOutcome_of_bytes? {a : Answer} {r : List Byte} (h : a.bytes? = some r) (n : Nat) :
    readOutcome n a = frameOutcome n r := by
  cases a with
  | fail op => cases h
  | bytes r => cases h; rfl
  | bits line => cases h; rfl

/-- Settles O47: both reads end with Read(A), which looks at no byte before the READY byte. -/
theorem ignoredBytesDoNotMatter : Obligations.IgnoredBytesDoNotMatter := by
  intro s a a' r r' rest haccepts hfit hfit' hbytes hbytes' hagree
  obtain ⟨t, hread, -, hresult⟩ :=
    exec_read_eq_readOutcome (s := { s with answers := a :: rest }) haccepts rfl hfit
  obtain ⟨t', hread', -, hresult'⟩ :=
    exec_read_eq_readOutcome (s := { s with answers := a' :: rest }) haccepts rfl hfit'
  refine ⟨t, t', hread, hread', ?_⟩
  rw [hresult, hresult', readOutcome_of_bytes? hbytes, readOutcome_of_bytes? hbytes']
  exact frameOutcome_congr hagree

/-! ### The wire symbols (spec/30_encoding.md R52, R55, R57, R59; log 12) -/

/-- Appending a bit to OUT, bit 31 falling off (R101). -/
theorem toNat_appendBit (out : SampleWord) (b : Bool) :
    (appendBit out b).toNat = (2 * out.toNat + b.toNat) % 2 ^ 32 := by
  have hdisjoint : out <<< 1 &&& BitVec.setWidth 32 (BitVec.ofBool b) = 0#32 := by
    ext i hi
    cases i <;> simp
  have hb : b.toNat < 2 := b.toNat_lt
  rw [appendBit, ← BitVec.add_eq_or_of_and_eq_zero _ _ hdisjoint, BitVec.toNat_add, BitVec.toNat_shiftLeft,
    BitVec.toNat_setWidth, BitVec.toNat_ofBool, Nat.shiftLeft_eq]
  omega

/-- Two raw bits of RAW are used up (R101). -/
theorem toNat_shiftLeft_two (raw : RawWord) : (raw <<< 2).toNat = 4 * raw.toNat % 2 ^ 64 := by
  rw [BitVec.toNat_shiftLeft, Nat.shiftLeft_eq, Nat.mul_comm]

/-- The instruction of the pair `(x, y)` (R57). -/
theorem exec_pairSymbol (x y : Bool) (s : State) :
    exec (if x then (if y then .pair1 else .pairx10) else (if y then .pairx01 else .pair0)) s = opPair x y s := by
  cases x <;> cases y <;> rfl

theorem opPair_absent {x y : Bool} (hphase : s.phase = .shift) (hcnt : s.cnt.toNat < iterations)
    (h : ¬ (s.b1 = x ∧ s.b2 = y)) : opPair x y s = .refused .symbolNotThere := by
  rw [opPair, if_pos ⟨hphase, hcnt⟩, if_neg h]

theorem opSend_absent {b : Byte} {lo hi : Nat} (hphase : s.phase = .exchange)
    (h : ¬ (lo ≤ s.sendAddress ∧ s.sendAddress < hi ∧ s.bufByte s.sendAddress = b)) :
    opSend b lo hi s = .refused .symbolNotThere := by
  rw [opSend, if_pos hphase, if_neg h]

theorem opNotReady_notReady (hphase : s.phase = .validate) (hn : s.n ≠ 0) (hready : s.bufByte (s.n - 1) = 0xFF#8) :
    opNotReady s = .next (s.raise .notReady) := by
  rw [← opValid_notReady hphase hn hready]
  simp [opNotReady, hphase, State.readyByte?, hn, hready, sentinel, sentinelByte]

theorem opNotReady_absent (hphase : s.phase = .validate) (hn : s.n ≠ 0) (hready : s.bufByte (s.n - 1) ≠ 0xFF#8) :
    opNotReady s = .refused .symbolNotThere := by
  simp [opNotReady, hphase, State.readyByte?, hn, hready, sentinel, sentinelByte]

/-- Settles O53: the symbol of an agreeing pair runs as DSTEP, which appends the pair's bit. -/
theorem legalPairsAppendTheirBit : Obligations.LegalPairsAppendTheirBit := by
  intro s b hphase hcnt hb1 hb2
  have hstep : opDstep s = .next s.shifted := opDstep_agree hphase hcnt (hb1.trans hb2.symm)
  refine ⟨s.shifted, ?_, hstep, ?_, toNat_shiftLeft_two s.raw, State.toNat_cnt_succ hcnt, rfl⟩
  · have hpair : opPair b b s = .next s.shifted := (opPair_eq hphase hcnt ⟨hb1, hb2⟩).trans hstep
    cases b <;> exact hpair
  · rw [← hb1]
    exact toNat_appendBit s.out s.b1

/-- Settles O54: the symbol of a disagreeing pair runs as DSTEP, which raises. -/
theorem illegalPairsRaise : Obligations.IllegalPairsRaise := by
  intro s b hphase hcnt hb1 hb2
  have hdiffer : s.b1 ≠ s.b2 := by
    rw [State.b1, State.b2, hb1, hb2]
    exact (Bool.not_ne_self b).symm
  have hpair : opPair b (!b) s = .next (s.raise .integrityViolation) :=
    (opPair_eq hphase hcnt ⟨hb1, hb2⟩).trans (opDstep_differ hphase hcnt hdiffer)
  refine ⟨_, ?_, raise_raised s .integrityViolation⟩
  cases b <;> exact hpair

/-- Settles O51: each transmit symbol, at its place, appends its eight raw bits. -/
theorem transmitSymbolsSendTheirBits : Obligations.TransmitSymbolsSendTheirBits := fun _ hphase =>
  ⟨fun hlt hbyte => opSend_next hphase ⟨Nat.zero_le _, hlt, hbyte⟩,
    fun hle hlt hbyte => opSend_next hphase ⟨hle, hlt, hbyte⟩⟩

/-- Settles O52: RXNOTRDY runs as VALID on the sentinel, and is absent on any other READY byte. -/
theorem readySymbolRaisesNotReady : Obligations.ReadySymbolRaisesNotReady := by
  intro s hphase hn
  have hpos : s.n ≠ 0 := Nat.one_le_iff_ne_zero.mp hn
  exact ⟨fun hready => ⟨_, opNotReady_notReady hphase hpos hready, raise_raised s .notReady⟩,
    fun hready => opNotReady_absent hphase hpos hready⟩

/-- Settles O55: a symbol fails the test of its place, by its bits or by its address. -/
theorem absentSymbolRefused : Obligations.AbsentSymbolRefused := by
  intro s
  refine ⟨fun hphase hcnt x y hne => ?_, fun hphase hplace => ?_, fun hphase hplace => ?_⟩
  · rw [exec_pairSymbol]
    exact opPair_absent hphase hcnt hne
  · refine opSend_absent hphase fun ⟨_, hlt, hbyte⟩ => ?_
    exact hplace.elim (absurd hbyte) fun hle => absurd hlt (Nat.not_lt.mpr hle)
  · refine opSend_absent hphase fun ⟨hle, hlt, hbyte⟩ => ?_
    rcases hplace with hne | hlt' | hle'
    · exact hne hbyte
    · exact absurd hle (Nat.not_le.mpr hlt')
    · exact absurd hlt (Nat.not_lt.mpr hle')

end Sys2Proof.Machine

/-! ### The Timing Calculator (spec/40_timing_calculator.md R70 to R74) -/

namespace Sys2Proof.Machine

variable {s : State}

/-- N is the least number of bytes that covers the product (R72). -/
theorem idleBytes_le_iff (c r m : Nat) : idleBytes c r ≤ m ↔ c * r ≤ m * 8000000 := by
  rw [idleBytes_eq]
  omega

/-- R71's rational form. -/
theorem idleBytes_eq_ceil (c r : Nat) : idleBytes c r = ⌈((c * r : Nat) : ℚ) / 8000000⌉₊ := by
  refine eq_of_forall_ge_iff fun m => ?_
  rw [idleBytes_le_iff, Nat.ceil_le, div_le_iff₀ (by norm_num)]
  exact_mod_cast Iff.rfl

/-- `m` bytes of eight bits at `c` Hz last at least `r` microseconds just if they cover the product (R72). -/
theorem reset_le_duration_iff {c : Nat} (hc : 0 < c) (r m : Nat) :
    (r : ℚ) / 1000000 ≤ 8 * m / c ↔ c * r ≤ m * 8000000 := by
  have hcq : (0 : ℚ) < c := Nat.cast_pos.mpr hc
  have hbits : (8 : ℚ) * m * 1000000 = m * 8000000 := by ring
  rw [div_le_div_iff₀ (by norm_num) hcq, mul_comm (r : ℚ), hbits]
  exact_mod_cast Iff.rfl

theorem exec_idleb_next {c r : Nat} (hphase : s.phase = .idle) (hlegal : legalProfile c r = true) :
    exec (.idleb c r) s = .next { s with clockHz := c, resetUs := r, n := idleBytes c r } :=
  (if_neg (not_not.mpr hphase)).trans (if_pos hlegal)

theorem exec_idleb_illegalProfile {c r : Nat} (hphase : s.phase = .idle) (hillegal : legalProfile c r = false) :
    exec (.idleb c r) s = .refused .illegalProfile :=
  (if_neg (not_not.mpr hphase)).trans (if_neg (Bool.eq_false_iff.mp hillegal))

theorem exec_read_illegalProfile (hphase : s.phase = .idle) (hillegal : s.profileLegal = false) :
    exec .read s = .refused .illegalProfile := by
  simp [exec, execRead, opRead, hphase, hillegal]

theorem exec_read_bufferTooSmall (hphase : s.phase = .idle) (hlegal : s.profileLegal = true) (hsmall : s.fits = false) :
    exec .read s = .refused .bufferTooSmall := by
  simp [exec, execRead, opRead, hphase, hlegal, hsmall]

/-- The range of R73, from outside. -/
theorem legalProfile_eq_false {c r : Nat} (h : c = 0 ∨ r = 0 ∨ 2 ^ 64 - 1 < c * r) : legalProfile c r = false := by
  refine Bool.eq_false_iff.mpr fun hlegal => ?_
  obtain ⟨hc, hr, hp⟩ := (legalProfile_iff c r).mp hlegal
  rcases h with rfl | rfl | hlarge
  · exact absurd hc (by decide)
  · exact absurd hr (by decide)
  · exact absurd hlarge (Nat.not_lt.mpr hp)

theorem State.fits_eq_false {cap : Nat} (hcap : s.bufCap = some cap) (hsmall : cap < s.n + 6) : s.fits = false :=
  Bool.eq_false_iff.mpr fun hfits => absurd (s.fits_iff.mp hfits cap hcap) (Nat.not_le.mpr hsmall)

/-- Settles O18: IDLEB stores `idleBytes`, which is R71's ceiling. -/
theorem idlebComputesCeiling : Obligations.IdlebComputesCeiling := by
  intro c r s hphase hc hr hp
  exact ⟨_, exec_idleb_next hphase ((legalProfile_iff c r).mpr ⟨hc, hr, hp⟩), idleBytes_eq_ceil c r, rfl, rfl⟩

/-- Settles O19: N covers the product, and one byte less does not, since N is the least number that does. -/
theorem idlebBoundIsTight : Obligations.IdlebBoundIsTight := by
  intro c r s hphase hc hr hp
  have hlegal : legalProfile c r = true := (legalProfile_iff c r).mpr ⟨hc, hr, hp⟩
  have hpos : 1 ≤ idleBytes c r := idleBytes_pos hlegal
  have hcovers : c * r ≤ idleBytes c r * 8000000 := (idleBytes_le_iff c r _).mp le_rfl
  have hleast : (idleBytes c r - 1) * 8000000 < c * r := by
    rw [← Nat.not_le, ← idleBytes_le_iff]
    omega
  refine ⟨_, exec_idleb_next hphase hlegal, ?_, ?_, hpos, fun m => ?_⟩
  · rwa [ge_iff_le, mul_assoc]
  · rwa [mul_assoc]
  · rw [reset_le_duration_iff hc, ← idleBytes_le_iff]

/-- Settles O20: the two configuration checks fail, R73's range before BUF_CAP. -/
theorem illegalConfigurationRefused : Obligations.IllegalConfigurationRefused := by
  refine ⟨fun c r s hphase hrange => ?_, fun s hphase hrange => ?_, fun s cap hphase hlegal hcap hsmall => ?_⟩
  · exact exec_idleb_illegalProfile hphase (legalProfile_eq_false hrange)
  · exact exec_read_illegalProfile hphase (legalProfile_eq_false hrange)
  · exact exec_read_bufferTooSmall hphase hlegal (State.fits_eq_false hcap hsmall)

end Sys2Proof.Machine

/-! ### The buffer constructor (spec/41_encode.md R80, R81) -/

namespace Sys2Proof.Machine

/-- Beyond the frame ENCODE leaves BUF as it was (R80). -/
theorem State.bufByte_encoded_beyond (s : State) {a : Nat} (ha : s.n + 6 ≤ a) :
    s.encoded.bufByte a = s.bufByte a :=
  s.bufByte_writeBytes_outside (.inr (by rwa [length_frame, Nat.zero_add]))

/-- The debug point (2) exposes the bytes of BUF that ENCODE wrote (R146). -/
theorem State.dump_encoded (s : State) :
    s.encoded.dump = if s.debug then s.dump ++ [.outgoing (s.encoded.bufBytes 0 (s.n + 6))] else s.dump := by
  rw [show s.n + 6 = s.bufLen from rfl, s.bufBytes_encoded, State.encoded_dump]

/-- Settles O23: ENCODE writes the frame from address 0 on, the idle bytes and then the clock bytes. -/
theorem encodeBuildsFrame : Obligations.EncodeBuildsFrame := fun s hphase =>
  ⟨s.encoded, opEncode_next hphase, State.encoded_phase s,
    fun _ ha => State.bufByte_of_written (State.encoded_buf s) (frame_idle ha),
    fun _ hk => State.bufByte_of_written (State.encoded_buf s) (frame_clock hk),
    fun _ ha => s.bufByte_encoded_beyond ha, rfl, s.dump_encoded⟩

/-- Settles O24: each of the two states ends with the frame of its own N in BUF, and the two frames are one. -/
theorem encodeDependsOnNAlone : Obligations.EncodeDependsOnNAlone := by
  intro s₁ s₂ hphase₁ hphase₂ hn
  refine ⟨s₁.encoded, s₂.encoded, opEncode_next hphase₁, opEncode_next hphase₂, rfl, ?_⟩
  calc s₁.encoded.bufBytes 0 s₁.bufLen
      = frame s₁.n := s₁.bufBytes_encoded
    _ = frame s₂.n := congrArg frame hn
    _ = s₂.encoded.bufBytes 0 s₂.bufLen := s₂.bufBytes_encoded.symm

end Sys2Proof.Machine

/-! ### Exchange and validation (spec/42_exchange_validate.md R90 to R95) -/

namespace Sys2Proof.Machine

variable {s : State}

/-- A frame given as bytes is in BUF as those bytes, and they are the debug point (3) (R90, R146). -/
theorem State.received_serialImage (s : State) (r : List Byte) :
    s.received (serialImage r) =
      { s with buf := Memory.writeBytes s.buf 0 r, serialIn := serialImage r, phase := .validate }.expose
        (.incoming r) := by
  rw [State.received, packBits_serialImage]

theorem opXchg_awaitingTransport (hphase : s.phase = .exchange) (hanswers : s.answers = []) :
    opXchg s = .fault .awaitingTransport := by
  rw [opXchg, if_pos hphase, hanswers]

/-- An answer whose raw bits are not the frame's number of bits is refused, in either form (R90; logs 6, 25). -/
theorem opXchg_answerLength {a : Answer} {line : List Bool} {rest : List Answer} (hphase : s.phase = .exchange)
    (hanswers : s.answers = a :: rest) (hline : a.line? = some line) (hlength : line.length ≠ unitBits * s.bufLen) :
    opXchg s = .refused .answerLength := by
  rw [opXchg, if_pos hphase, hanswers]
  cases a with
  | fail op => cases hline
  | bytes r => cases hline; exact if_neg hlength
  | bits l => cases hline; exact if_neg hlength

theorem opValid_noSuchAddress (hphase : s.phase = .validate) (hn : s.n = 0) :
    opValid s = .fault .noSuchAddress := by
  rw [opValid, if_pos hphase, State.readyByte?, if_pos hn]

/-- READ from a state that accepts it runs the operations of a read (R120). -/
theorem exec_read_of_acceptsRead (haccepts : s.acceptsRead) : exec .read s = opReadSequence s.accept := by
  obtain ⟨hphase, hlegal, hfits, -⟩ := haccepts
  simp [exec, execRead, opRead, hphase, hlegal, hfits]

/-- A read without an answer ends at the handover of its frame (R93; log 13). -/
theorem opReadSequence_wait (hphase : s.phase = .build) (hanswers : s.answers = []) :
    opReadSequence s = .next s.encoded.handOver := by
  have hwait : opXchgOrWait s.encoded = .next s.encoded.handOver := if_pos hanswers
  rw [opReadSequence, opEncode_next hphase, thenAt_next_pos (State.encoded_phase s), hwait,
    thenAt_next_neg (by simp), thenAt_next_neg (by simp)]

/-- Settles O25: XCHG writes the answer's bytes into BUF from address 0 on, over the whole frame and no further. -/
theorem xchgReceivesBytes : Obligations.XchgReceivesBytes := by
  intro s r rest hphase hanswers hlength
  have hxchg := opXchg_bytes hphase hanswers hlength
  rw [State.received_serialImage] at hxchg
  refine ⟨_, hxchg, rfl, ?_, fun a ha => ?_, rfl, rfl⟩
  · rw [State.bufBytes_of_written rfl 0 _ (by omega), List.drop_zero, List.take_of_length_le hlength.le]
  · exact s.bufByte_writeBytes_outside (.inr (by omega))

/-- Settles O45: the read ends at the handover, and the state it leaves still has no answer for XCHG. -/
theorem readWithoutAnswerWaits : Obligations.ReadWithoutAnswerWaits := by
  intro s haccepts hanswers
  have hread : exec .read s = .next s.accept.encoded.handOver :=
    (exec_read_of_acceptsRead haccepts).trans (opReadSequence_wait rfl hanswers)
  have hframe : s.accept.encoded.handOver.bufBytes 0 (s.n + 6) = frame s.n := s.accept.bufBytes_encoded
  have hxchg : exec .xchg s.accept.encoded.handOver = .fault .awaitingTransport :=
    opXchg_awaitingTransport (s := s.accept.encoded.handOver) rfl hanswers
  exact ⟨_, hread, rfl, rfl, hframe, rfl, rfl, rfl, rfl, rfl, rfl, hxchg⟩

/-- Settles O28: no answer is a fault, and bytes of another number make another number of raw bits. -/
theorem xchgNeedsAnAnswer : Obligations.XchgNeedsAnAnswer := by
  intro s hphase
  refine ⟨opXchg_awaitingTransport hphase, fun r rest hanswers hlength => ?_, fun line rest hanswers hlength => ?_⟩
  · have hbits : (serialImage r).length ≠ unitBits * s.bufLen := by
      rw [length_serialImage]
      exact fun h => hlength (Nat.eq_of_mul_eq_mul_left (by decide) h)
    exact opXchg_answerLength hphase hanswers rfl hbits
  · exact opXchg_answerLength hphase hanswers rfl hlength

/-- Settles O30: N ≥ 1 gives the READY byte its address, and any value but the sentinel passes. -/
theorem validPassesWhenReady : Obligations.ValidPassesWhenReady := fun _ hphase hn hready =>
  opValid_ready hphase (Nat.one_le_iff_ne_zero.mp hn) hready

/-- Settles O31: the sentinel raises NotReady, and with N = 0 there is no READY byte to test. -/
theorem validRaisesNotReady : Obligations.ValidRaisesNotReady := fun s hphase =>
  ⟨fun hn hready => ⟨_, opValid_notReady hphase (Nat.one_le_iff_ne_zero.mp hn) hready, raise_raised s .notReady⟩,
    opValid_noSuchAddress hphase⟩

end Sys2Proof.Machine

/-! ### Decode48 (spec/43_decode.md R103 to R110) -/

namespace Sys2Proof.Machine

/-- A bit of OUT after a bit was appended: the new one at the bottom, the others one place up (R101). -/
theorem getLsbD_appendBit (out : SampleWord) (b : Bool) {j : Nat} (hj : j < 32) :
    (appendBit out b).getLsbD j = if j = 0 then b else out.getLsbD (j - 1) := by
  cases j with
  | zero => simp [appendBit]
  | succ j => simp [appendBit, hj, BitVec.getLsbD_eq_getElem (show j < 32 by omega)]

/-- One iteration makes each pair of RAW the one before: `c` is 63 for first bits, 62 for second bits (R101). -/
theorem getLsbD_shiftLeft_two (raw : RawWord) {c p : Nat} (hc : c < 64) (hp : 2 * (p + 1) ≤ c) :
    (raw <<< 2).getLsbD (c - 2 * p) = raw.getLsbD (c - 2 * (p + 1)) := by
  rw [BitVec.getLsbD_shiftLeft, decide_eq_true (by omega), decide_eq_false (by omega),
    show c - 2 * p - 2 = c - 2 * (p + 1) by omega]
  rfl

/-- `k` iterations on agreeing pairs append the first bits of the `k` pairs, the last one at bit 0, and move OUT's own
bits `k` places up (R103, R104). -/
theorem decodeLoop_eq_sample {k : Nat} {raw : RawWord} {out v : SampleWord} (hk : k ≤ 32)
    (hpairs : ∀ p < k, raw.getLsbD (63 - 2 * p) = raw.getLsbD (62 - 2 * p))
    (hnew : ∀ p < k, v.getLsbD (k - 1 - p) = raw.getLsbD (63 - 2 * p))
    (hold : ∀ j, j + k < 32 → v.getLsbD (j + k) = out.getLsbD j) : decodeLoop k raw out = .sample v := by
  induction k generalizing raw out with
  | zero => exact congrArg Result.sample (BitVec.eq_of_getLsbD_eq fun j hj => (hold j hj).symm)
  | succ k ih =>
    rw [decodeLoop, if_pos (hpairs 0 (by omega))]
    refine ih (by omega) (fun p hp => ?_) (fun p hp => ?_) (fun j hj => ?_)
    · rw [getLsbD_shiftLeft_two raw (by omega) (by omega), getLsbD_shiftLeft_two raw (by omega) (by omega)]
      exact hpairs (p + 1) (by omega)
    · rw [getLsbD_shiftLeft_two raw (by omega) (by omega), ← hnew (p + 1) (by omega),
        show k + 1 - 1 - (p + 1) = k - 1 - p by omega]
    · rw [getLsbD_appendBit out _ (by omega)]
      split
      · subst j
        rw [Nat.zero_add]
        exact hnew 0 (by omega)
      · rw [show j + k = j - 1 + (k + 1) by omega, hold (j - 1) (by omega)]

/-- A pair that differs is the violation, whatever the pairs around it (R105). -/
theorem decodeLoop_eq_violation {k p : Nat} {raw : RawWord} (out : SampleWord) (hk : k ≤ 32) (hp : p < k)
    (hpair : raw.getLsbD (63 - 2 * p) ≠ raw.getLsbD (62 - 2 * p)) : decodeLoop k raw out = .integrityViolation := by
  induction k generalizing raw out p with
  | zero => omega
  | succ k ih =>
    rw [decodeLoop]
    split
    · cases p with
      | zero => contradiction
      | succ p =>
        refine ih _ (by omega) (p := p) (by omega) ?_
        rwa [getLsbD_shiftLeft_two raw (by omega) (by omega), getLsbD_shiftLeft_two raw (by omega) (by omega)]
    · rfl

/-- Above the window RAW is zero (R100). -/
theorem getLsbD_zeroExtended (w : BitVec 48) {i : Nat} (hi : i < 64) :
    (BitVec.setWidth 64 w).getLsbD i = w.getLsbD i := by
  simp [hi]

/-- Pair `8 + p` of RAW is pair `p` of the window (R106). -/
theorem getLsbD_zeroExtended_pair (w : BitVec 48) {p : Nat} (hp : p < 24) :
    ((BitVec.setWidth 64 w).getLsbD (63 - 2 * (8 + p)) = (BitVec.setWidth 64 w).getLsbD (62 - 2 * (8 + p))) ↔
      pairAgrees w p := by
  rw [getLsbD_zeroExtended w (by omega), getLsbD_zeroExtended w (by omega), pairAgrees,
    show 63 - 2 * (8 + p) = 47 - 2 * p by omega, show 62 - 2 * (8 + p) = 46 - 2 * p by omega]

/-- The pairs of RAW that agree: the eight of the padding, and those of the window that do (R106). -/
theorem zeroExtended_pair_agrees {w : BitVec 48} {p : Nat} (hp : p < 32) (hpair : 8 ≤ p → pairAgrees w (p - 8)) :
    (BitVec.setWidth 64 w).getLsbD (63 - 2 * p) = (BitVec.setWidth 64 w).getLsbD (62 - 2 * p) := by
  by_cases h8 : 8 ≤ p
  · have hwindow := (getLsbD_zeroExtended_pair w (p := p - 8) (by omega)).mpr (hpair h8)
    rwa [show 8 + (p - 8) = p by omega] at hwindow
  · rw [getLsbD_zeroExtended w (by omega), getLsbD_zeroExtended w (by omega), BitVec.getLsbD_of_ge _ _ (by omega),
      BitVec.getLsbD_of_ge _ _ (by omega)]

/-- Both bits of a pair of EXPAND(v) are one bit of v (R9). -/
theorem pairAgrees_of_expands {v : BitVec 24} {w : BitVec 48} (h : Expands v w) {p : Nat} (hp : p < 24) :
    pairAgrees w p := by
  obtain ⟨hfirst, hsecond⟩ := h (23 - p) (by omega)
  rw [pairAgrees, show 47 - 2 * p = 2 * (23 - p) + 1 by omega, show 46 - 2 * p = 2 * (23 - p) by omega, hfirst,
    hsecond]

/-- The first bits of the 24 pairs of a window. -/
def firstBits (w : BitVec 48) : BitVec 24 := BitVec.ofFnLE fun k => w.getLsbD (2 * k + 1)

/-- A legal window is the expansion of its pairs' first bits. -/
theorem expands_firstBits {w : BitVec 48} (h : ∀ p < 24, pairAgrees w p) : Expands (firstBits w) w := by
  intro k hk
  have hpair := h (23 - k) (by omega)
  rw [pairAgrees, show 47 - 2 * (23 - k) = 2 * k + 1 by omega, show 46 - 2 * (23 - k) = 2 * k by omega] at hpair
  have hbit : (firstBits w).getLsbD k = w.getLsbD (2 * k + 1) := by
    simp [firstBits, BitVec.getLsbD_eq_getElem hk]
  exact ⟨hbit.symm, hpair.symm.trans hbit.symm⟩

/-- Decode48 of EXPAND(v) is v, zero-extended (R110). -/
theorem decode48_of_expands {v : BitVec 24} {w : BitVec 48} (h : Expands v w) :
    decode48 w = .sample (BitVec.setWidth 32 v) := by
  rw [decode48, iterations]
  refine decodeLoop_eq_sample le_rfl
    (fun p hp => zeroExtended_pair_agrees hp fun h8 => pairAgrees_of_expands h (by omega)) (fun p hp => ?_)
    (fun j hj => absurd hj (by omega))
  rw [getLsbD_zeroExtended w (by omega), BitVec.getLsbD_setWidth, decide_eq_true (by omega), Bool.true_and]
  by_cases h8 : 8 ≤ p
  · obtain ⟨hfirst, -⟩ := h (31 - p) (by omega)
    rw [← hfirst, show 2 * (31 - p) + 1 = 63 - 2 * p by omega]
  · rw [BitVec.getLsbD_of_ge _ _ (by omega), BitVec.getLsbD_of_ge _ _ (by omega)]

/-- A legal window decodes to its pairs' first bits (R104). -/
theorem decode48_of_legal {w : BitVec 48} (h : ∀ p < 24, pairAgrees w p) :
    decode48 w = .sample (BitVec.setWidth 32 (firstBits w)) :=
  decode48_of_expands (expands_firstBits h)

/-- A bad pair makes the violation (R105). -/
theorem decode48_of_pair_differs {w : BitVec 48} {p : Nat} (hp : p < 24) (hpair : ¬ pairAgrees w p) :
    decode48 w = .integrityViolation :=
  decodeLoop_eq_violation (k := 32) 0#32 le_rfl (p := 8 + p) (by omega) fun h =>
    hpair ((getLsbD_zeroExtended_pair w hp).mp h)

/-- The windows without a bad pair are the expansions (R9, R57). -/
theorem legal_iff_expands (w : BitVec 48) : (∀ p < 24, pairAgrees w p) ↔ ∃ v, Expands v w :=
  ⟨fun h => ⟨_, expands_firstBits h⟩, fun ⟨_, h⟩ _ hp => pairAgrees_of_expands h hp⟩

/-- The violation is the outcome just of the windows that are not legal (R105). -/
theorem decode48_eq_violation_iff (w : BitVec 48) :
    decode48 w = .integrityViolation ↔ ¬ ∀ p < 24, pairAgrees w p := by
  refine ⟨fun h hlegal => ?_, fun h => ?_⟩
  · rw [decode48_of_legal hlegal] at h
    cases h
  · push Not at h
    obtain ⟨p, hp, hpair⟩ := h
    exact decode48_of_pair_differs hp hpair

/-- Settles O42: EXPAND(v) decodes to v, and a window that is not legal, so no expansion, decodes to the violation. -/
theorem expandRoundTrip : Obligations.ExpandRoundTrip := by
  refine ⟨fun _ _ h => decode48_of_expands h, fun w x hsample => ?_⟩
  by_contra hno
  have hviolation := (decode48_eq_violation_iff w).mpr fun hlegal => hno ((legal_iff_expands w).mp hlegal)
  rw [hviolation] at hsample
  cases hsample

/-- A number modulo a power of two is the sum of its low bits' weights. -/
theorem sum_testBit_mul_two_pow (x n : Nat) : ∑ j ∈ Finset.range n, (x.testBit j).toNat * 2 ^ j = x % 2 ^ n := by
  induction n with
  | zero => simp [Nat.mod_one]
  | succ n ih => rw [Finset.sum_range_succ, ih, Nat.mod_pow_succ, Nat.toNat_testBit, Nat.mul_comm]

/-- Above its width a word has no bits set. -/
theorem extractLsb'_of_ge {w start : Nat} (x : BitVec w) (len : Nat) (h : w ≤ start) :
    x.extractLsb' start len = 0#len := by
  refine BitVec.eq_of_getLsbD_eq fun i hi => ?_
  rw [BitVec.getLsbD_extractLsb', BitVec.getLsbD_of_ge _ _ (by omega), Bool.and_false, BitVec.getLsbD_zero]

/-- Settles O40: bit k of the sample is the first bit of pair 23 − k, and the sample is the sum of its bits' weights. -/
theorem legalWindowGivesSample : Obligations.LegalWindowGivesSample := by
  intro w hlegal
  have hbit (p : Nat) (hp : p < 24) : (firstBits w).getLsbD (23 - p) = w.getLsbD (47 - 2 * p) := by
    rw [← (expands_firstBits hlegal (23 - p) (by omega)).1, show 2 * (23 - p) + 1 = 47 - 2 * p by omega]
  have hlow (p : Nat) (hp : p < 24) :
      (BitVec.setWidth 32 (firstBits w)).getLsbD (23 - p) = w.getLsbD (47 - 2 * p) := by
    rw [BitVec.getLsbD_setWidth, decide_eq_true (by omega), Bool.true_and, hbit p hp]
  refine ⟨_, decode48_of_legal hlegal, ?_, hlow, ?_⟩
  · rw [BitVec.extractLsb'_setWidth_of_le (by decide)]
    exact extractLsb'_of_ge _ 8 le_rfl
  · calc (BitVec.setWidth 32 (firstBits w)).toNat
        = (firstBits w).toNat % 2 ^ 24 := by bv_omega
      _ = ∑ j ∈ Finset.range 24, ((firstBits w).getLsbD j).toNat * 2 ^ j := (sum_testBit_mul_two_pow _ 24).symm
      _ = ∑ p ∈ Finset.range 24, ((firstBits w).getLsbD (23 - p)).toNat * 2 ^ (23 - p) :=
        (Finset.sum_range_reflect _ 24).symm
      _ = ∑ p ∈ Finset.range 24, (w.getLsbD (47 - 2 * p)).toNat * 2 ^ (23 - p) :=
        Finset.sum_congr rfl fun p hp => by rw [hbit p (Finset.mem_range.mp hp)]

/-- The mask of R105 selects the even bits. -/
theorem getLsbD_evenMask {i : Nat} (hi : i < 48) : (0x555555555555#48).getLsbD i = decide (i % 2 = 0) := by
  revert i
  decide

/-- R105's bitwise test: the even bits of w xor (w >> 1) are the pairs that differ. -/
theorem bitTest_eq_zero_iff (w : BitVec 48) :
    (w ^^^ (w >>> 1)) &&& 0x555555555555#48 = 0#48 ↔ ∀ p < 24, pairAgrees w p := by
  have hbit (i : Nat) (hi : i < 48) : ((w ^^^ (w >>> 1)) &&& 0x555555555555#48).getLsbD i =
      ((w.getLsbD i ^^ w.getLsbD (1 + i)) && decide (i % 2 = 0)) := by
    rw [BitVec.getLsbD_and, BitVec.getLsbD_xor, BitVec.getLsbD_ushiftRight, getLsbD_evenMask hi]
  constructor
  · intro h p hp
    have hpair := hbit (46 - 2 * p) (by omega)
    rw [h, BitVec.getLsbD_zero, decide_eq_true (by omega), Bool.and_true, eq_comm, bne_eq_false_iff_eq,
      show 1 + (46 - 2 * p) = 47 - 2 * p by omega] at hpair
    exact hpair.symm
  · intro h
    refine BitVec.eq_of_getLsbD_eq fun i hi => ?_
    rw [hbit i hi, BitVec.getLsbD_zero]
    by_cases heven : i % 2 = 0
    · have hpair := h (23 - i / 2) (by omega)
      rw [pairAgrees, show 47 - 2 * (23 - i / 2) = 1 + i by omega, show 46 - 2 * (23 - i / 2) = i by omega] at hpair
      rw [hpair, Bool.xor_self, Bool.false_and]
    · rw [decide_eq_false heven, Bool.and_false]

/-- Settles O41: each form says that the window is not legal. -/
theorem violationIffSomePairDisagrees : Obligations.ViolationIffSomePairDisagrees := by
  intro w
  rw [decode48_eq_violation_iff, ne_eq, bitTest_eq_zero_iff, ← not_exists, ← legal_iff_expands]
  exact ⟨by push Not; rfl, Iff.rfl, Iff.rfl⟩

/-- R109's reading of the low 24 bits: the sign bit is bit 23. -/
theorem toInt_signedReading (v : SampleWord) : (signedReading v).toInt = (BitVec.setWidth 24 v).toInt :=
  BitVec.toInt_signExtend_of_le (by decide)

/-- Settles O43: the zero window is EXPAND(0), and the signed reading is the 24-bit field's. -/
theorem zeroWindowAndSignedReading : Obligations.ZeroWindowAndSignedReading := by
  refine ⟨decode48_of_expands (v := 0#24) fun k _ => by simp, fun v => ?_⟩
  rw [toInt_signedReading, BitVec.toInt_eq_toNat_cond, BitVec.toNat_setWidth]
  generalize v.toNat % 2 ^ 24 = field
  split <;> split <;> omega

end Sys2Proof.Machine

/-! ### The decoder's micro-operations and macros (spec/43_decode.md R100 to R106, R111) -/

namespace Sys2Proof.Machine

variable {s t : State}

/-- What LDRAW leaves: the zero-extended window in RAW, OUT and CNT cleared (R100). -/
def State.windowLoaded (s : State) : State :=
  { s with raw := BitVec.setWidth 64 s.windowBits, out := 0#32, cnt := 0#6, phase := .shift }

@[simp] theorem State.windowLoaded_raw (s : State) : s.windowLoaded.raw = BitVec.setWidth 64 s.windowBits := rfl
@[simp] theorem State.windowLoaded_out (s : State) : s.windowLoaded.out = 0#32 := rfl
@[simp] theorem State.windowLoaded_cnt (s : State) : s.windowLoaded.cnt = 0#6 := rfl
@[simp] theorem State.windowLoaded_phase (s : State) : s.windowLoaded.phase = .shift := rfl
@[simp] theorem State.windowLoaded_caller (s : State) : s.windowLoaded.caller = s.caller := rfl

theorem opLdraw_eq_windowLoaded (hphase : s.phase = .load) : opLdraw s = .next s.windowLoaded := by
  rw [opLdraw_next hphase, ← State.toNat_windowBits, BitVec.ofNat_toNat, State.windowLoaded]

/-- Byte `k` of the window, the first one most significant (R56). -/
theorem extractLsb'_windowOf (win : Nat → Byte) {k : Nat} (hk : k < 6) :
    (windowOf win).extractLsb' (40 - 8 * k) 8 = win k := by
  interval_cases k <;>
    simp [windowOf, BitVec.extractLsb'_append_eq_of_le (w := 8), BitVec.extractLsb'_append_eq_of_add_le (w := 8)]

/-- Settles O32: RAW is the zero-extended window, of which BUF[N + k] is byte k. -/
theorem ldrawLoadsWindow : Obligations.LdrawLoadsWindow := by
  intro s hphase
  refine ⟨_, opLdraw_eq_windowLoaded hphase, ?_, fun k hk => ?_, rfl⟩
  · rw [State.windowLoaded_raw, BitVec.extractLsb'_setWidth_of_le (by decide)]
    exact extractLsb'_of_ge _ 16 le_rfl
  · rw [State.windowLoaded_raw, BitVec.extractLsb'_setWidth_of_le (by omega)]
    exact extractLsb'_windowOf _ hk

/-- Settles O33: on an agreeing pair DSTEP leaves `shifted`, whose count reaches 32 just from 31. -/
theorem dstepConsumesPair : Obligations.DstepConsumesPair := by
  intro s hphase hcnt hpair
  have hlast : s.cnt.toNat + 1 = iterations ↔ s.cnt.toNat = 31 := by
    rw [iterations]
    omega
  refine ⟨s.shifted, opDstep_agree hphase hcnt hpair, toNat_appendBit s.out s.b1, toNat_shiftLeft_two s.raw,
    State.toNat_cnt_succ hcnt, ?_, rfl, ?_⟩
  · simp only [State.shifted_phase, hlast]
  · simp only [State.shifted_dump, State.shifted_out, hlast, Bool.and_eq_true, decide_eq_true_eq]

/-- Settles O34: a disagreeing pair is the mismatch on which DSTEP raises. -/
theorem dstepMismatchRaises : Obligations.DstepMismatchRaises := fun s hphase hcnt hpair =>
  ⟨_, opDstep_differ hphase hcnt hpair, raise_raised s .integrityViolation⟩

/-- Settles O35: FINAL leaves `delivered`, field by field. -/
theorem finalDeliversOut : Obligations.FinalDeliversOut := fun s hphase hcnt =>
  ⟨s.delivered, opFinal_next hphase hcnt, rfl⟩

/-! #### DECODE -/

/-- `t` is `s` but for what the decoder writes: the registers, PHASE, RESULT, BUF and the dump. -/
def DecoderFrame (s t : State) : Prop :=
  t = { s with
    result := t.result, phase := t.phase, raw := t.raw, out := t.out, cnt := t.cnt, buf := t.buf
    dump := t.dump, freeTick := t.freeTick }

/-- Each of the decoder's micro-operations stays within its frame. -/
theorem DecoderFrame.of_opLdraw {u : State} (h : DecoderFrame s u) (hstep : opLdraw u = .next t) :
    DecoderFrame s t := by
  obtain ⟨-, rfl⟩ := opLdraw_cases hstep
  rw [DecoderFrame, h]

theorem DecoderFrame.of_opDstep {u : State} (h : DecoderFrame s u) (hstep : opDstep u = .next t) :
    DecoderFrame s t := by
  obtain ⟨-, -, ⟨-, rfl⟩ | ⟨-, rfl⟩⟩ := opDstep_cases hstep <;> rw [DecoderFrame, h] <;> rfl

theorem DecoderFrame.of_opFinal {u : State} (h : DecoderFrame s u) (hstep : opFinal u = .next t) :
    DecoderFrame s t := by
  obtain ⟨-, -, rfl⟩ := opFinal_cases hstep
  rw [DecoderFrame, h]
  rfl

theorem opDecode_frame (h : opDecode s = .next t) : DecoderFrame s t :=
  opDecode_keeps (P := DecoderFrame s) (s := s) (fun _ _ => DecoderFrame.of_opLdraw)
    (fun _ _ => DecoderFrame.of_opDstep) (fun _ _ => DecoderFrame.of_opFinal) rfl h

/-- What the pass keeps of RAW and CNT, and so what a delivered sample finds (R106). -/
structure PassCounted (s : State) : Prop where
  /-- While the pass runs, the low 2·CNT bits of RAW are zero. -/
  rawUsed : s.phase = .shift ∨ s.phase = .finish → 2 ^ (2 * s.cnt.toNat) ∣ s.raw.toNat
  /-- At the end of the read a sample stands in OUT, RAW is used up and CNT is 32. -/
  sampleEnd : s.phase = .idle → (∃ v, s.result = .sample v) → s.raw = 0#64 ∧ s.cnt = 32#6 ∧ s.result = .sample s.out

theorem passCounted_of_load (hphase : s.phase = .load) : PassCounted s where
  rawUsed := by simp [hphase]
  sampleEnd := by simp [hphase]

theorem passCounted_windowLoaded (s : State) : PassCounted s.windowLoaded where
  rawUsed := by simp
  sampleEnd := by simp

theorem passCounted_raise {o : Result} (ho : ∀ v, o ≠ .sample v) : PassCounted (s.raise o) where
  rawUsed := by simp
  sampleEnd := by simp [ho]

/-- A shift by two makes two more low bits of RAW zero. -/
theorem PassCounted.shifted (h : PassCounted s) (hphase : s.phase = .shift) (hcnt : s.cnt.toNat < iterations) :
    PassCounted s.shifted := by
  have hzero : 2 ^ (2 * (s.cnt.toNat + 1)) ∣ 4 * s.raw.toNat := by
    rw [Nat.mul_succ, Nat.pow_add, Nat.mul_comm]
    exact Nat.mul_dvd_mul_left 4 (h.rawUsed (.inl hphase))
  refine ⟨fun _ => ?_, fun hidle => ?_⟩
  · rw [State.shifted_cnt, State.toNat_cnt_succ hcnt, State.shifted_raw, toNat_shiftLeft_two]
    have hwidth : 2 ^ (2 * (s.cnt.toNat + 1)) ∣ 2 ^ 64 :=
      Nat.pow_dvd_pow 2 (by rw [iterations] at hcnt; omega)
    exact (Nat.dvd_mod_iff hwidth).mpr hzero
  · rw [State.shifted_phase] at hidle
    split at hidle <;> cases hidle

/-- After the 32nd iteration all 64 bits of RAW are zero. -/
theorem PassCounted.delivered (h : PassCounted s) (hphase : s.phase = .finish) (hcnt : s.cnt.toNat = iterations) :
    PassCounted s.delivered := by
  refine ⟨by simp, fun _ _ => ⟨?_, BitVec.eq_of_toNat_eq hcnt, rfl⟩⟩
  have hzero := h.rawUsed (.inr hphase)
  rw [hcnt] at hzero
  exact BitVec.eq_of_toNat_eq (Nat.eq_zero_of_dvd_of_lt hzero s.raw.isLt)

theorem PassCounted.of_opDstep (h : PassCounted s) (hstep : opDstep s = .next t) : PassCounted t := by
  obtain ⟨hphase, hcnt, ⟨-, rfl⟩ | ⟨-, rfl⟩⟩ := opDstep_cases hstep
  · exact passCounted_raise (by simp)
  · exact h.shifted hphase hcnt

theorem opDecode_passCounted (hphase : s.phase = .load) (h : opDecode s = .next t) : PassCounted t := by
  refine opDecode_keeps (fun u v _ hstep => ?_) (fun _ _ => PassCounted.of_opDstep) (fun u v hu hstep => ?_)
    (passCounted_of_load hphase) h
  · obtain ⟨hload, -⟩ := opLdraw_cases hstep
    cases (opLdraw_eq_windowLoaded hload).symm.trans hstep
    exact passCounted_windowLoaded u
  · obtain ⟨hfinish, hcnt, rfl⟩ := opFinal_cases hstep
    exact hu.delivered hfinish hcnt

/-- Settles O36: DECODE ends in IDLE with Decode48 of the window, within the decoder's frame, its pass counted out. -/
theorem decodeIsDecode48 : Obligations.DecodeIsDecode48 := by
  intro s hphase
  obtain ⟨t, hdecode, hidle, hresult⟩ := opDecode_eq_decode48 hphase
  have hframe := opDecode_frame hdecode
  rw [DecoderFrame, hidle] at hframe
  exact ⟨t, hdecode, hresult, hframe, (opDecode_passCounted hphase hdecode).sampleEnd hidle⟩

/-! #### The macros are runs of single steps (R103, R120, R121; log 13) -/

open Host.Core (run)

/-- What follows a next state, whatever its phase; a stop stands. -/
def onNext (o : StepResult) (k : State → StepResult) : StepResult :=
  match o with
  | .next s => k s
  | .fault r => .fault r
  | .refused r => .refused r

/-- A run of `k + 1` steps is a step, then a run of `k`. -/
theorem run_succ_eq_onNext (k : Nat) (s : State) : run core (k + 1) s = onNext (step s) (run core k) := by
  have hstep : core.step s = step s := rfl
  simp only [run, hstep]
  cases step s <;> rfl

theorem run_one (s : State) : run core 1 s = step s := by
  rw [run_succ_eq_onNext]
  cases step s <;> rfl

/-- A run of `a + b` steps is a run of `a`, then one of `b`. -/
theorem run_add (a b : Nat) (s : State) : run core (a + b) s = onNext (run core a s) (run core b) := by
  induction a generalizing s with
  | zero => rw [Nat.zero_add]; rfl
  | succ a ih =>
    rw [Nat.add_right_comm, run_succ_eq_onNext, run_succ_eq_onNext]
    cases step s with
    | next t => exact ih t
    | fault r => rfl
    | refused r => rfl

/-- A machine at rest stays as it is, however long it runs (R161). -/
theorem run_idle (hphase : s.phase = .idle) (hcaller : s.caller = []) (k : Nat) : run core k s = .next s := by
  induction k with
  | zero => rfl
  | succ k ih =>
    have hrest : step s = .next s := (stepRunsOperationOfPhase s hcaller).1 hphase
    rw [run_succ hrest, ih]

/-- A sequenced operation is a run of steps, when its two halves are and an early exit stays where it is. -/
theorem thenAt_eq_run {o : StepResult} {p : Phase} {k : State → StepResult} {a b : Nat} (ho : o = run core a s)
    (hnext : ∀ t, o = .next t → t.phase = p → k t = run core b t)
    (hexit : ∀ t, o = .next t → t.phase ≠ p → run core b t = .next t) : thenAt o p k = run core (a + b) s := by
  rw [run_add, ← ho]
  cases o with
  | next t =>
    by_cases hphase : t.phase = p
    · exact (thenAt_next_pos hphase).trans (hnext t rfl hphase)
    · exact (thenAt_next_neg hphase).trans (hexit t rfl hphase).symm
  | fault r => rfl
  | refused r => rfl

/-- With nothing issued a micro-operation in its phase is one step. -/
theorem exec_eq_run_one {i : Instr} (hcaller : s.caller = []) (hop : s.phase.operation = some i) :
    exec i s = run core 1 s := by
  rw [run_one, step_of_operation hcaller hop]

theorem DecoderFrame.caller (h : DecoderFrame s t) : t.caller = s.caller := by
  rw [h]

/-- What is left of the pass, as steps: at an early exit the machine rests in IDLE, and the pass ends in FINISH just with
its last iteration (R103, R111). -/
theorem opDsteps_eq_run (k : Nat) (hphase : s.phase = .shift) (hcaller : s.caller = [])
    (hcnt : s.cnt.toNat + k ≤ iterations) : opDsteps k s = run core k s := by
  induction k generalizing s with
  | zero => rfl
  | succ k ih =>
    have hlt : s.cnt.toNat < iterations := by omega
    have hcount := State.toNat_cnt_succ (s := s) hlt
    rw [opDsteps, Nat.add_comm k]
    refine thenAt_eq_run (exec_eq_run_one (i := .dstep) hcaller (by rw [hphase]; rfl)) (fun t hstep hshift => ?_)
      (fun t hstep hexit => ?_)
    · obtain ⟨-, -, ⟨-, rfl⟩ | ⟨-, rfl⟩⟩ := opDstep_cases hstep
      · cases hshift
      · exact ih hshift hcaller (by rw [State.shifted_cnt, hcount]; omega)
    · obtain ⟨-, -, ⟨-, rfl⟩ | ⟨-, rfl⟩⟩ := opDstep_cases hstep
      · exact run_idle (State.raise_phase _ _) hcaller k
      · have hlast : s.cnt.toNat + 1 = iterations := by
          by_contra hmore
          exact hexit (if_neg hmore)
        have hk : k = 0 := by omega
        rw [hk]
        rfl

theorem step_load (hphase : s.phase = .load) (hcaller : s.caller = []) : step s = .next s.windowLoaded := by
  rw [step_of_operation (i := .ldraw) hcaller (by rw [hphase]; rfl)]
  exact opLdraw_eq_windowLoaded hphase

/-- The whole pass from LOAD, as steps. -/
theorem ldrawDsteps_eq_run (hphase : s.phase = .load) (hcaller : s.caller = []) :
    thenAt (opLdraw s) .shift (opDsteps iterations) = run core 33 s := by
  rw [opLdraw_eq_windowLoaded hphase, thenAt_next_pos s.windowLoaded_phase, run_succ (step_load hphase hcaller)]
  exact opDsteps_eq_run iterations s.windowLoaded_phase hcaller le_rfl

/-- The pass from LOAD ends in FINISH or, raised, in IDLE. -/
theorem ldrawDsteps_phase (hphase : s.phase = .load)
    (h : thenAt (opLdraw s) .shift (opDsteps iterations) = .next t) : t.phase = .finish ∨ t.phase = .idle := by
  rw [opLdraw_eq_windowLoaded hphase, thenAt_next_pos s.windowLoaded_phase] at h
  obtain ⟨u, hpass, ⟨hfinish, -⟩ | ⟨hidle, -⟩⟩ := opDsteps_eq_decodeLoop 31 s.windowLoaded_phase rfl
  all_goals cases hpass.symm.trans h
  · exact .inl hfinish
  · exact .inr hidle

theorem ldrawDsteps_frame (h : thenAt (opLdraw s) .shift (opDsteps iterations) = .next t) : DecoderFrame s t :=
  thenAt_keeps (P := DecoderFrame s) (fun _ hu => DecoderFrame.of_opLdraw (u := s) rfl hu)
    (fun _ _ hu hv => opDsteps_keeps (fun _ _ => DecoderFrame.of_opDstep) iterations hu hv) h

/-- DECODE is 34 steps (R103; log 13). -/
theorem opDecode_eq_run (hphase : s.phase = .load) (hcaller : s.caller = []) : opDecode s = run core 34 s := by
  refine thenAt_eq_run (a := 33) (b := 1) (ldrawDsteps_eq_run hphase hcaller) (fun t hpass hfinish => ?_)
    (fun t hpass hexit => ?_)
  · exact exec_eq_run_one (i := .final) ((ldrawDsteps_frame hpass).caller.trans hcaller) (by rw [hfinish]; rfl)
  · have hidle := (ldrawDsteps_phase hphase hpass).resolve_left hexit
    exact run_idle hidle ((ldrawDsteps_frame hpass).caller.trans hcaller) 1

/-- XCHG ends in VALIDATE or, raised, in IDLE. -/
theorem opXchg_end (h : opXchg s = .next t) : t.caller = s.caller ∧ (t.phase = .validate ∨ t.phase = .idle) := by
  obtain ⟨-, ⟨op, rest, -, rfl⟩ | ⟨a, line, rest, -, -, -, rfl⟩⟩ := opXchg_cases h
  · exact ⟨rfl, .inr rfl⟩
  · exact ⟨rfl, .inl rfl⟩

/-- VALID ends in LOAD or, raised, in IDLE. -/
theorem opValid_end (h : opValid s = .next t) : t.caller = s.caller ∧ (t.phase = .load ∨ t.phase = .idle) := by
  obtain ⟨-, -, ⟨-, rfl⟩ | ⟨-, rfl⟩⟩ := opValid_cases h
  · exact ⟨rfl, .inr rfl⟩
  · exact ⟨rfl, .inl rfl⟩

/-- The exchange and VALID are two steps, the second one at rest when the transport fails. -/
theorem xchgValid_eq_run (hphase : s.phase = .exchange) (hcaller : s.caller = []) :
    thenAt (opXchg s) .validate opValid = run core 2 s := by
  refine thenAt_eq_run (a := 1) (b := 1) (exec_eq_run_one (i := .xchg) hcaller (by rw [hphase]; rfl))
    (fun t hstep hvalidate => ?_) (fun t hstep hexit => ?_)
  all_goals obtain ⟨hkept, hend⟩ := opXchg_end hstep
  · exact exec_eq_run_one (i := .valid) (hkept.trans hcaller) (by rw [hvalidate]; rfl)
  · exact run_idle (hend.resolve_left hexit) (hkept.trans hcaller) 1

/-- The exchange and VALID end in LOAD or, raised by one of them, in IDLE. -/
theorem xchgValid_end (h : thenAt (opXchg s) .validate opValid = .next t) :
    t.caller = s.caller ∧ (t.phase = .load ∨ t.phase = .idle) := by
  rcases thenAt_cases h with ⟨u, hxchg, -, hvalid⟩ | ⟨hxchg, hexit⟩
  · obtain ⟨hkept, hend⟩ := opValid_end hvalid
    exact ⟨hkept.trans (opXchg_end hxchg).1, hend⟩
  · obtain ⟨hkept, hend⟩ := opXchg_end hxchg
    exact ⟨hkept, .inr (hend.resolve_left hexit)⟩

/-- An answered read is 37 steps from BUILD (R120, R121; log 13). -/
theorem opReadSequence_eq_run (hphase : s.phase = .build) (hcaller : s.caller = []) (hanswers : s.answers ≠ []) :
    opReadSequence s = run core 37 s := by
  have hxchg : opXchgOrWait s.encoded = opXchg s.encoded := if_neg hanswers
  have hencode : step s = .next s.encoded := by
    rw [step_of_operation (i := .encode) hcaller (by rw [hphase]; rfl)]
    exact opEncode_next hphase
  rw [opReadSequence, opEncode_next hphase, thenAt_next_pos (State.encoded_phase s), hxchg, run_succ hencode]
  refine thenAt_eq_run (a := 2) (b := 34) (xchgValid_eq_run (State.encoded_phase s) hcaller)
    (fun t hready hload => ?_) (fun t hready hexit => ?_)
  all_goals obtain ⟨hkept, hend⟩ := xchgValid_end hready
  · exact opDecode_eq_run hload (hkept.trans hcaller)
  · exact run_idle (hend.resolve_left hexit) (hkept.trans hcaller) 34

/-- Settles O37: both macros are the runs of their steps. -/
theorem macrosAreTheirSteps : Obligations.MacrosAreTheirSteps :=
  ⟨fun _ hphase hcaller => opDecode_eq_run hphase hcaller, fun s haccepts hcaller hanswers =>
    (exec_read_of_acceptsRead haccepts).trans (opReadSequence_eq_run (State.accept_phase s) hcaller hanswers)⟩

/-! #### The pass, iteration by iteration (R105, R106, R111) -/

/-- RAW after `k` iterations without a raise. -/
theorem State.raw_iterate_shifted (s : State) (k : Nat) : (State.shifted^[k] s).raw = s.raw <<< (2 * k) := by
  induction k with
  | zero => simp
  | succ k ih => rw [Function.iterate_succ_apply', State.shifted_raw, ih, ← BitVec.shiftLeft_add, Nat.mul_succ]

theorem State.toNat_cnt_iterate_shifted {k : Nat} (h : s.cnt.toNat + k ≤ iterations) :
    (State.shifted^[k] s).cnt.toNat = s.cnt.toNat + k := by
  induction k with
  | zero => rfl
  | succ k ih =>
    have hk := ih (by omega)
    rw [Function.iterate_succ_apply', State.shifted_cnt, State.toNat_cnt_succ (by rw [iterations] at h; omega), hk]
    rfl

theorem State.caller_iterate_shifted (s : State) (k : Nat) : (State.shifted^[k] s).caller = s.caller := by
  induction k with
  | zero => rfl
  | succ k ih => rw [Function.iterate_succ_apply', State.shifted_caller, ih]

theorem State.phase_iterate_shifted {k : Nat} (hphase : s.phase = .shift) (hcnt : s.cnt.toNat + k < iterations) :
    (State.shifted^[k] s).phase = .shift := by
  cases k with
  | zero => exact hphase
  | succ k =>
    rw [Function.iterate_succ_apply', State.shifted_phase, State.toNat_cnt_iterate_shifted (by omega),
      if_neg (by omega)]

/-- After `k` iterations the top pair is pair `k` of what RAW was. -/
theorem State.topPair_iterate_shifted (s : State) {k : Nat} (hk : k < 32) :
    (State.shifted^[k] s).b1 = s.raw.getLsbD (63 - 2 * k) ∧ (State.shifted^[k] s).b2 = s.raw.getLsbD (62 - 2 * k) := by
  have hbit (i : Nat) (hi : i < 64) (hle : 2 * k ≤ i) :
      (State.shifted^[k] s).raw.getLsbD i = s.raw.getLsbD (i - 2 * k) := by
    rw [State.raw_iterate_shifted, BitVec.getLsbD_shiftLeft, decide_eq_true hi, decide_eq_false (by omega)]
    rfl
  exact ⟨hbit 63 (by omega) (by omega), hbit 62 (by omega) (by omega)⟩

/-- With nothing issued, `k` steps on agreeing pairs are `k` iterations. -/
theorem run_eq_iterate_shifted {k : Nat} (hphase : s.phase = .shift) (hcaller : s.caller = [])
    (hcnt : s.cnt.toNat + k ≤ iterations)
    (hpairs : ∀ q < k, s.raw.getLsbD (63 - 2 * q) = s.raw.getLsbD (62 - 2 * q)) :
    run core k s = .next (State.shifted^[k] s) := by
  induction k with
  | zero => rfl
  | succ k ih =>
    have hbefore := ih (by omega) fun q hq => hpairs q (by omega)
    have hrun : step (State.shifted^[k] s) = .next (State.shifted^[k + 1] s) := by
      obtain ⟨hb1, hb2⟩ := s.topPair_iterate_shifted (k := k) (by rw [iterations] at hcnt; omega)
      have hshift := State.phase_iterate_shifted hphase (k := k) (by omega)
      rw [step_of_operation (i := .dstep) ((s.caller_iterate_shifted k).trans hcaller) (by rw [hshift]; rfl),
        Function.iterate_succ_apply']
      refine opDstep_agree hshift ?_ (by rw [hb1, hb2, hpairs k (by omega)])
      rw [State.toNat_cnt_iterate_shifted (by omega)]
      omega
    rw [run_add, hbefore]
    exact (run_one _).trans hrun

/-- From LOAD with nothing issued, LDRAW and `8 + p` DSTEPs on a window whose first `p` pairs agree (R105, R106). -/
theorem run_eq_iterate_windowLoaded {p : Nat} (hphase : s.phase = .load) (hcaller : s.caller = []) (hp : p < 24)
    (hpairs : ∀ q < p, pairAgrees s.windowBits q) :
    run core (9 + p) s = .next (State.shifted^[8 + p] s.windowLoaded) := by
  rw [show 9 + p = 8 + p + 1 by omega, run_succ (step_load hphase hcaller)]
  exact run_eq_iterate_shifted rfl hcaller (by simp [iterations]; omega) fun q hq =>
    zeroExtended_pair_agrees (by omega) fun h8 => hpairs _ (by omega)

/-- OUT stays zero through the padding, whose pairs are the high bits of RAW (R106). -/
theorem State.out_iterate_windowLoaded (s : State) {k : Nat} (hk : k ≤ 8) :
    (State.shifted^[k] s.windowLoaded).out = 0#32 := by
  induction k with
  | zero => rfl
  | succ k ih =>
    have hzero : (State.shifted^[k] s.windowLoaded).b1 = false := by
      rw [(State.topPair_iterate_shifted _ (by omega)).1, State.windowLoaded_raw, getLsbD_zeroExtended _ (by omega),
        BitVec.getLsbD_of_ge _ _ (by omega)]
    rw [Function.iterate_succ_apply', State.shifted_out, ih (by omega), hzero]
    rfl

/-- Settles O38: eight iterations on the zero pairs of the padding. -/
theorem firstEightIterationsConsumePadding : Obligations.FirstEightIterationsConsumePadding := by
  intro s hphase hcaller
  refine ⟨_, run_eq_iterate_windowLoaded (p := 0) hphase hcaller (by decide) (by simp),
    State.phase_iterate_shifted rfl (by simp [iterations]), ?_, s.out_iterate_windowLoaded le_rfl,
    BitVec.eq_of_toNat_eq (State.toNat_cnt_iterate_shifted (by simp [iterations]))⟩
  have := s.windowBits.isLt
  rw [State.raw_iterate_shifted, State.windowLoaded_raw, BitVec.toNat_shiftLeft, Nat.shiftLeft_eq,
    BitVec.toNat_setWidth]
  omega

/-- Settles O39: after `8 + p` iterations the top pair is pair `p` of the window, and DSTEP raises on it. -/
theorem firstBadPairRaisesInItsIteration : Obligations.FirstBadPairRaisesInItsIteration := by
  intro s p hphase hcaller hp hpairs hbad
  have hcount : (State.shifted^[8 + p] s.windowLoaded).cnt.toNat = 8 + p := by
    rw [State.toNat_cnt_iterate_shifted (by simp [iterations]; omega)]
    simp
  have hshift : (State.shifted^[8 + p] s.windowLoaded).phase = .shift :=
    State.phase_iterate_shifted rfl (by simp [iterations]; omega)
  have hdiffer : (State.shifted^[8 + p] s.windowLoaded).b1 ≠ (State.shifted^[8 + p] s.windowLoaded).b2 := by
    obtain ⟨hb1, hb2⟩ := State.topPair_iterate_shifted s.windowLoaded (k := 8 + p) (by omega)
    rw [hb1, hb2]
    exact fun h => hbad ((getLsbD_zeroExtended_pair s.windowBits hp).mp h)
  have hnone : (State.shifted^[8 + p] s.windowLoaded).caller = [] :=
    (State.caller_iterate_shifted _ _).trans hcaller
  refine ⟨_, _, run_eq_iterate_windowLoaded hphase hcaller hp hpairs, hshift, hcount, ?_,
    raise_raised _ .integrityViolation⟩
  rw [step_of_operation (i := .dstep) hnone (by rw [hshift]; rfl)]
  exact opDstep_differ hshift (by rw [hcount, iterations]; omega) hdiffer

end Sys2Proof.Machine

/-! ### SCALE (spec/44_read_and_scale.md R123, R124) -/

namespace Sys2Proof.Machine

variable {s t : State}

/-- The model's quotient in lowest terms is the fraction of R123. -/
theorem scaleQuotient_eq_div (v : SampleWord) : scaleQuotient v = (v.toNat : ℚ) / 4294967295 := by
  rw [scaleQuotient, Rat.mkRat_eq_div]
  rfl

/-- The record SCALE leaves holds the quotient of its operand. -/
theorem exact_of_exec_scale {v : SampleWord} {x : Scaled} (h : exec (.scale v) s = .next t) (hx : t.scaled = some x) :
    x.exact = scaleQuotient v := by
  cases h
  cases hx
  rfl

theorem scaleQuotient_nonneg (v : SampleWord) : 0 ≤ scaleQuotient v := by
  rw [scaleQuotient_eq_div]
  positivity

/-- 65793 / 16843009 is (2^24 − 1) / (2^32 − 1) in lowest terms (R124). -/
theorem scaleQuotient_le_of_lt {v : SampleWord} (hv : v.toNat < 2 ^ 24) : scaleQuotient v ≤ 65793 / 16843009 := by
  have hle : (v.toNat : ℚ) ≤ 16777215 := by exact_mod_cast Nat.le_of_lt_succ hv
  calc scaleQuotient v
      = (v.toNat : ℚ) / 4294967295 := scaleQuotient_eq_div v
    _ ≤ 16777215 / 4294967295 := by gcongr
    _ = 65793 / 16843009 := by norm_num

theorem scaleQuotient_eq_one_iff (v : SampleWord) : scaleQuotient v = 1 ↔ v = 0xFFFFFFFF#32 := by
  rw [scaleQuotient_eq_div, div_eq_one_iff_eq (by norm_num), BitVec.toNat_eq]
  norm_cast

theorem scaleQuotient_lt_iff (v w : SampleWord) : scaleQuotient v < scaleQuotient w ↔ v.toNat < w.toNat := by
  rw [scaleQuotient_eq_div, scaleQuotient_eq_div, div_lt_div_iff_of_pos_right (by norm_num), Nat.cast_lt]

/-- Settles O49: SCALE writes the record alone, with the quotient in it. -/
theorem scaleIsExactQuotient : Obligations.ScaleIsExactQuotient := fun v _ =>
  ⟨_, _, rfl, rfl, scaleQuotient_eq_div v, rfl⟩

/-- Settles O50: the four clauses are facts of the quotient. -/
theorem scaleRange : Obligations.ScaleRange := by
  intro v w s t u x y hv hx hw hy
  rw [exact_of_exec_scale hv hx, exact_of_exec_scale hw hy]
  exact ⟨scaleQuotient_nonneg v, scaleQuotient_le_of_lt, scaleQuotient_eq_one_iff v, (scaleQuotient_lt_iff v w).symm⟩

end Sys2Proof.Machine

/-! ### READ's frame (spec/44_read_and_scale.md R120, spec/42_exchange_validate.md R90, R91) -/

namespace Sys2Proof.Machine

variable {s t u : State}

theorem DecoderFrame.trans (h : DecoderFrame s u) (h' : DecoderFrame u t) : DecoderFrame s t := by
  rw [DecoderFrame, h', h]

/-- VALID writes no more than the decoder may. -/
theorem opValid_frame (h : opValid s = .next t) : DecoderFrame s t := by
  obtain ⟨-, -, ⟨-, rfl⟩ | ⟨-, rfl⟩⟩ := opValid_cases h <;> rfl

/-- `t` is `s` after the answer ahead of `rest` was taken: the transfer of `s` is submitted, and the registers, PHASE,
RESULT, BUF, the line records and the dump may hold anything; every other field stays. -/
def ExchangeFrame (s : State) (rest : List Answer) (t : State) : Prop :=
  t = { s with
    answers := rest, submitted := some s.transfer
    result := t.result, phase := t.phase, raw := t.raw, out := t.out, cnt := t.cnt, buf := t.buf
    serial := t.serial, serialIn := t.serialIn, dump := t.dump, freeTick := t.freeTick }

/-- XCHG takes one answer and submits one transfer, whichever way it ends (R90). -/
theorem opXchg_frame {a : Answer} {rest : List Answer} (hanswers : s.answers = a :: rest) (h : opXchg s = .next t) :
    ExchangeFrame s rest t := by
  obtain ⟨-, ⟨op, rest', hqueue, rfl⟩ | ⟨a', line, rest', hqueue, -, -, rfl⟩⟩ := opXchg_cases h
  all_goals
    cases hanswers.symm.trans hqueue
    rfl

theorem ExchangeFrame.trans_decoderFrame {rest : List Answer} (h : ExchangeFrame s rest u) (h' : DecoderFrame u t) :
    ExchangeFrame s rest t := by
  rw [ExchangeFrame, h', h]

/-- After ENCODE, an answered read stays within the frame of its one exchange. -/
theorem opReadSequence_frame {a : Answer} {rest : List Answer} (hphase : s.phase = .build)
    (hanswers : s.answers = a :: rest) (h : opReadSequence s = .next t) : ExchangeFrame s.encoded rest t := by
  have hxchg : opXchgOrWait s.encoded = opXchg s.encoded := if_neg (by simp [hanswers])
  rw [opReadSequence, opEncode_next hphase, thenAt_next_pos (State.encoded_phase s), hxchg] at h
  refine thenAt_keeps (fun v hvalid => ?_) (fun v w hv hdecode => hv.trans_decoderFrame (opDecode_frame hdecode)) h
  exact thenAt_keeps (fun _ => opXchg_frame hanswers) (fun _ _ hv hw => hv.trans_decoderFrame (opValid_frame hw)) hvalid

/-- The transfer of the built frame (R51, R90, R91). -/
theorem State.transfer_encoded (s : State) : s.encoded.transfer = ⟨frame s.n, s.n + 6, s.clockHz, 8, none⟩ := by
  rw [State.transfer, State.encoded_bufLen, State.bufBytes_encoded]
  rfl

/-- Settles O44: the outcome is Read(A), and what the read leaves as it was is the frame of its exchange. -/
theorem readEndsWithReadOfAnswer : Obligations.ReadEndsWithReadOfAnswer := by
  intro s a rest haccepts hanswers hfit
  obtain ⟨t, hread, hidle, hresult⟩ := exec_read_eq_readOutcome haccepts hanswers hfit
  have hframe : ExchangeFrame s.accept.encoded rest t :=
    opReadSequence_frame (s := s.accept) rfl hanswers ((exec_read_of_acceptsRead haccepts).symm.trans hread)
  rw [ExchangeFrame, State.transfer_encoded] at hframe
  refine ⟨t, hread, hidle, congrArg State.answers hframe, hresult, congrArg State.submitted hframe, ?_⟩
  rw [hframe]
  exact ⟨rfl, rfl, rfl, rfl, rfl, rfl, rfl⟩

end Sys2Proof.Machine

/-! ### The outcomes of a read (spec/60_exceptions.md R131, R132, R145) -/

namespace Sys2Proof.Machine

variable {s : State}

/-- DONE is 0 just while no read has ended (R131). -/
theorem Result.done_eq_false_iff (r : Result) : r.done = false ↔ r = .noOutcome := by
  cases r <;> simp [Result.done]

/-- Only Sample carries a sample, and it carries its own (R18). -/
theorem Result.sample?_eq_some_iff (r : Result) (v : SampleWord) : r.sample? = some v ↔ r = .sample v := by
  cases r <;> simp [Result.sample?]

/-- Settles O9: CODE row by row of R131's table, DONE and the sample outcome by outcome. -/
theorem outcomeCodesAndSample : Obligations.OutcomeCodesAndSample :=
  ⟨Result.done_eq_false_iff, fun _ => rfl, rfl, rfl, fun _ => rfl, Result.sample?_eq_some_iff⟩

theorem exec_read_busy (hbusy : s.phase ≠ .idle) : exec .read s = .refused .busy := if_pos hbusy

theorem exec_idleb_busy (hbusy : s.phase ≠ .idle) (c r : Nat) : exec (.idleb c r) s = .refused .busy := if_pos hbusy

/-- Settles O21: both operations test PHASE before anything else. -/
theorem busyRefusesReadAndIdleb : Obligations.BusyRefusesReadAndIdleb := fun _ hbusy =>
  ⟨exec_read_busy hbusy, exec_idleb_busy hbusy⟩

/-- Settles O27: the frame is handed over and cut off, and the raise comes on top of that. -/
theorem xchgFailureRaisesTransportFault : Obligations.XchgFailureRaisesTransportFault := fun _ op _ hphase hanswers =>
  ⟨_, opXchg_fail hphase hanswers, rfl, rfl, raise_raised _ (.transportFault op)⟩

end Sys2Proof.Machine

/-! ### The debug points of a read (spec/60_exceptions.md R146; log 15) -/

namespace Sys2Proof.Machine

variable {s t : State} {d : List DebugPoint}

/-- The debug points a read has passed since the exchange: (4) when its 32nd DSTEP is done, (4) and (5) when it has
delivered a sample, none when it is not so far or was cut short by a raise. -/
def State.decodePoints (s : State) : List DebugPoint :=
  match s.phase, s.result with
  | .finish, _ => [.postDecode s.out]
  | .idle, .sample v => [.postDecode v, .hostOrder v]
  | _, _ => []

theorem State.decodePoints_finish (hphase : s.phase = .finish) : s.decodePoints = [.postDecode s.out] := by
  rw [State.decodePoints, hphase]

theorem State.decodePoints_sample {v : SampleWord} (hphase : s.phase = .idle) (hresult : s.result = .sample v) :
    s.decodePoints = [.postDecode v, .hostOrder v] := by
  rw [State.decodePoints, hphase, hresult]

theorem State.decodePoints_decoding (hphase : s.phase ∈ [Phase.validate, .load, .shift]) : s.decodePoints = [] := by
  simp only [List.mem_cons, List.not_mem_nil, or_false] at hphase
  rcases hphase with hphase | hphase | hphase <;> rw [State.decodePoints, hphase]

theorem State.decodePoints_raise (s : State) {o : Result} (ho : ∀ v, o ≠ .sample v) :
    (s.raise o).decodePoints = [] := by
  cases o with
  | sample v => exact absurd rfl (ho v)
  | noOutcome | notReady | integrityViolation | transportFault op => rfl

/-- With DEBUG = 1 the dump is `d` and then the points passed since the exchange; with DEBUG = 0 it is `d`. -/
def DumpsAfter (d : List DebugPoint) (s : State) : Prop :=
  s.dump = if s.debug then d ++ s.decodePoints else d

theorem dumpsAfter_iff_of_no_points (h : s.decodePoints = []) : DumpsAfter d s ↔ s.dump = d := by
  simp [DumpsAfter, h]

/-- Before the 32nd DSTEP the dump is `d` alone. -/
theorem DumpsAfter.dump_decoding (h : DumpsAfter d s) (hphase : s.phase ∈ [Phase.validate, .load, .shift]) :
    s.dump = d :=
  (dumpsAfter_iff_of_no_points (State.decodePoints_decoding hphase)).mp h

theorem dumpsAfter_decoding (hphase : s.phase ∈ [Phase.validate, .load, .shift]) (hdump : s.dump = d) :
    DumpsAfter d s :=
  (dumpsAfter_iff_of_no_points (State.decodePoints_decoding hphase)).mpr hdump

theorem dumpsAfter_raise {o : Result} (ho : ∀ v, o ≠ .sample v) (hdump : s.dump = d) : DumpsAfter d (s.raise o) :=
  (dumpsAfter_iff_of_no_points (s.decodePoints_raise ho)).mpr hdump

theorem DumpsAfter.of_opValid (h : DumpsAfter d s) (hstep : opValid s = .next t) : DumpsAfter d t := by
  obtain ⟨hphase, -, ⟨-, rfl⟩ | ⟨-, rfl⟩⟩ := opValid_cases hstep
  all_goals have hdump := h.dump_decoding (by simp [hphase])
  · exact dumpsAfter_raise (by simp) hdump
  · exact dumpsAfter_decoding (by simp) hdump

theorem DumpsAfter.of_opLdraw (h : DumpsAfter d s) (hstep : opLdraw s = .next t) : DumpsAfter d t := by
  obtain ⟨hphase, rfl⟩ := opLdraw_cases hstep
  exact dumpsAfter_decoding (by simp) (h.dump_decoding (by simp [hphase]))

/-- The 32nd DSTEP exposes the point (4), an earlier one nothing. -/
theorem DumpsAfter.of_opDstep (h : DumpsAfter d s) (hstep : opDstep s = .next t) : DumpsAfter d t := by
  obtain ⟨hphase, -, ⟨-, rfl⟩ | ⟨-, rfl⟩⟩ := opDstep_cases hstep
  all_goals have hdump := h.dump_decoding (by simp [hphase])
  · exact dumpsAfter_raise (by simp) hdump
  · by_cases hlast : s.cnt.toNat + 1 = iterations
    · rw [DumpsAfter, State.decodePoints_finish (by simp [hlast])]
      cases hdebug : s.debug <;> simp [hlast, hdump, hdebug]
    · exact dumpsAfter_decoding (by simp [hlast]) (by simp [hlast, hdump])

/-- FINAL exposes the point (5), with the value of the point (4) (R102). -/
theorem DumpsAfter.of_opFinal (h : DumpsAfter d s) (hstep : opFinal s = .next t) : DumpsAfter d t := by
  obtain ⟨hphase, -, rfl⟩ := opFinal_cases hstep
  rw [DumpsAfter, State.decodePoints_finish hphase] at h
  rw [DumpsAfter, State.decodePoints_sample s.delivered_phase s.delivered_result]
  cases hdebug : s.debug <;> simp [h, hdebug]

/-- From VALIDATE on, a read exposes the decoder's points on top of the dump it has. -/
theorem validThenDecode_dumpsAfter (hphase : s.phase = .validate)
    (h : thenAt (opValid s) .load opDecode = .next t) : DumpsAfter s.dump t := by
  have hstart : DumpsAfter s.dump s := dumpsAfter_decoding (by simp [hphase]) rfl
  exact thenAt_keeps (fun _ => hstart.of_opValid)
    (fun _ _ hu => opDecode_keeps (fun _ _ => .of_opLdraw) (fun _ _ => .of_opDstep) (fun _ _ => .of_opFinal) hu) h

/-- A read whose answer is a frame is ENCODE, the exchange with that answer, and the operations from VALID on. -/
theorem opReadSequence_line {a : Answer} {line : List Bool} {rest : List Answer} (hphase : s.phase = .build)
    (hanswers : s.answers = a :: rest) (hline : a.line? = some line) (hlength : line.length = unitBits * s.bufLen) :
    opReadSequence s =
      thenAt (opValid ({ s.encoded.handOver with answers := rest }.received line)) .load opDecode := by
  have hxchg : opXchgOrWait s.encoded = opXchg s.encoded := if_neg (by simp [hanswers])
  rw [opReadSequence, opEncode_next hphase, thenAt_next_pos s.encoded_phase, hxchg,
    opXchg_line s.encoded_phase hanswers hline hlength, thenAt_next_pos (State.received_phase _ line)]

/-- What such a read exposes, however it ends: on top of the dump it has, the frame sent, the bytes received and the
decoder's points, as far as the read gets. -/
theorem opReadSequence_dump {a : Answer} {line : List Bool} {rest : List Answer} (hphase : s.phase = .build)
    (hanswers : s.answers = a :: rest) (hline : a.line? = some line) (hlength : line.length = unitBits * s.bufLen)
    (h : opReadSequence s = .next t) :
    t.dump =
      if s.debug then s.dump ++ [.outgoing (frame s.n), .incoming (packBits line)] ++ t.decodePoints else s.dump := by
  have hframe : ExchangeFrame s.encoded rest t := opReadSequence_frame hphase hanswers h
  have hdebug : t.debug = s.debug := by rw [hframe, State.encoded_debug]
  rw [opReadSequence_line hphase hanswers hline hlength] at h
  have hdump := validThenDecode_dumpsAfter (State.received_phase _ line) h
  rw [DumpsAfter, hdebug] at hdump
  cases hs : s.debug <;> simpa [hs] using hdump

/-- The raw bits of an answer whose received bytes are `r` (log 25). -/
theorem Answer.exists_line?_of_bytes? {a : Answer} {r : List Byte} (h : a.bytes? = some r) :
    ∃ line, a.line? = some line ∧ packBits line = r := by
  cases hline : a.line? with
  | none =>
    obtain ⟨op, rfl⟩ := Answer.eq_fail_of_line? hline
    cases h
  | some line => exact ⟨line, rfl, Option.some.inj ((Answer.bytes?_of_line? hline).symm.trans h)⟩

/-- Settles O48: the accepted state's dump is the point (1), and the read exposes the others on top of it. -/
theorem readExposesDebugPoints : Obligations.ReadExposesDebugPoints := by
  intro s a r rest v haccepts hanswers hfit hbytes houtcome
  obtain ⟨t, hread, hidle, hresult⟩ := exec_read_eq_readOutcome haccepts hanswers hfit
  obtain ⟨line, hline, rfl⟩ := Answer.exists_line?_of_bytes? hbytes
  refine ⟨t, hread, ?_⟩
  rw [exec_read_of_acceptsRead haccepts] at hread
  rw [opReadSequence_dump s.accept_phase hanswers hline (Answer.length_line? hline hfit) hread,
    State.decodePoints_sample hidle (hresult.trans houtcome)]
  cases hdebug : s.debug
  all_goals
    rw [State.accept_debug, State.accept_dump, hdebug]
    rfl

end Sys2Proof.Machine

/-! ### A reset while HXPD runs (spec/70_reset_and_hazards.md R161) -/

namespace Sys2Proof.Machine

/-- The zero profile is out of R73's range, so R161's "no value until the caller supplies them" is the zeros of log 2. -/
theorem legalProfile_zero : legalProfile 0 0 = false := by decide

@[simp] theorem State.applyReset_profileLegal (s : State) : s.applyReset.profileLegal = false := legalProfile_zero

/-- Settles O2: `applyReset` takes PHASE, RESULT and DEBUG from the reset state, and BUF_CAP and the two queues from
the state it interrupts. -/
theorem resetDuringReadAbandonsIt : Obligations.ResetDuringReadAbandonsIt := by
  intro s rest hcaller
  exact ⟨_, step_resetEvent hcaller, rfl, rfl, rfl, State.applyReset_profileLegal _, rfl, rfl, rfl⟩

end Sys2Proof.Machine
